-- ==== Sys2Proof/Word.lean ====
section
/-!
DEFINITION. The word types of the framer (spec/00_scope.md R4, R5, R9): every value is an unsigned
bit vector of one fixed width.
-/

namespace Sys2Proof

/-- A byte, 8 bits (R9). -/
abbrev Byte := BitVec 8

/-- The 32-bit host operand, size accumulator and result value (ARG_W, ACC_W, RES_VAL_W; R5). -/
abbrev Word := BitVec 32

/-- The 24-bit Flash Address (ADDR_BITS; R4). -/
abbrev FlashAddr := BitVec 24

/-- The 3-bit operation selector (SEL_W; R5). -/
abbrev Selector := BitVec 3

/-- The 35-bit host command word (CMD_W; R5, R60). -/
abbrev CmdWord := BitVec 35

/-- The 11-bit sequencer index (IX_W; R5, R17). -/
abbrev Index := BitVec 11

end Sys2Proof
end

