-- ==== Sys2Proof/Syntax.lean ====
section
/-!
DEFINITION. The eight operations (spec/00_scope.md R2), one constructor per row of
spec/opcode_table.json, each with exactly the operand fields of its row: the field the operation uses
and the field it ignores (spec/30_encoding.md R62). The ignored bits stand in the syntax because AR
latches the whole of CMD[31:0] (spec/10_state.md R15); nothing reads them.
-/

namespace Sys2Proof

/-- The command set, in the order of the selector (R61). -/
inductive Instr where
  /-- ISSUE_CMD: `ign` = ARG[31:8], `opb` = ARG[7:0] (R62, R88). -/
  | issueCmd (ign : BitVec 24) (opb : Byte)
  /-- READ_STATUS: `ign` = ARG[31:0] (R62, R90). -/
  | readStatus (ign : Word)
  /-- ENTER_UDPD: `ign` = ARG[31:0] (R62, R92). -/
  | enterUdpd (ign : Word)
  /-- EXIT_SLEEP: `ign` = ARG[31:0] (R62, R93). -/
  | exitSleep (ign : Word)
  /-- READ_PAGE: `ign` = ARG[31:24], `addr` = ARG[23:0] (R62, R100). -/
  | readPage (ign : Byte) (addr : FlashAddr)
  /-- WRITE_PAGE: `ign` = ARG[31:24], `addr` = ARG[23:0] (R62, R102). -/
  | writePage (ign : Byte) (addr : FlashAddr)
  /-- ERASE_PAGE: `ign` = ARG[31:24], `addr` = ARG[23:0] (R62, R104). -/
  | erasePage (ign : Byte) (addr : FlashAddr)
  /-- DISCOVER_SIZE: `ign` = ARG[31:0] (R62, R115). -/
  | discoverSize (ign : Word)
  deriving DecidableEq, Repr

end Sys2Proof
end

