-- ==== Sys2Proof/WellFormed.lean ====
section
/-!
DEFINITION. What is a command at all. Every value of every field of every operation is accepted
(spec/30_encoding.md R62, R68: "There is no illegal and no reserved command word"), so `Instr.wf`
refuses nothing; the one check there is concerns a raw number offered as a command word, which must
fit the 35 bits of CMD (R60).
-/

namespace Sys2Proof

/-- Every instruction is well formed (R68). -/
def Instr.wf : Instr → Bool
  | .issueCmd _ _ => true
  | .readStatus _ => true
  | .enterUdpd _ => true
  | .exitSleep _ => true
  | .readPage _ _ => true
  | .writePage _ _ => true
  | .erasePage _ _ => true
  | .discoverSize _ => true

/-- A number is a command word iff it fits CMD_W = 35 bits (R60). -/
def isCommandWord (w : Nat) : Bool := decide (w < 2 ^ 35)

end Sys2Proof
end

