-- ==== Sys2Proof/Decode.lean ====
section
/-!
DEFINITION. Decoding of the host command word (spec/30_encoding.md R60 to R62, R68), and after it the
encoder, written from the same table. The decoder is total on the 2^35 command words and refuses none;
a number too wide for the command port is refused by name.
-/

namespace Sys2Proof

/-- `SEL = CMD[34:32]` (R60). -/
def cmdSel (w : CmdWord) : Selector := w.extractLsb' 32 3

/-- `ARG = CMD[31:0]` (R60). -/
def cmdArg (w : CmdWord) : Word := w.extractLsb' 0 32

/-- `ADDR = ARG[23:0]` (R62). -/
def argAddr (a : Word) : FlashAddr := a.extractLsb' 0 24

/-- ARG[31:24], which the page operations ignore (R62). -/
def argHigh (a : Word) : Byte := a.extractLsb' 24 8

/-- `OPB = ARG[7:0]` (R62). -/
def argOpb (a : Word) : Byte := a.extractLsb' 0 8

/-- ARG[31:8], which ISSUE_CMD ignores (R62). -/
def argAboveOpb (a : Word) : BitVec 24 := a.extractLsb' 8 24

/-- The operation that SEL and ARG name (R61, R62): the field is fully decoded. -/
def decodeFields (sel : Selector) (a : Word) : Instr :=
  if sel = 0#3 then .issueCmd (argAboveOpb a) (argOpb a)
  else if sel = 1#3 then .readStatus a
  else if sel = 2#3 then .enterUdpd a
  else if sel = 3#3 then .exitSleep a
  else if sel = 4#3 then .readPage (argHigh a) (argAddr a)
  else if sel = 5#3 then .writePage (argHigh a) (argAddr a)
  else if sel = 6#3 then .erasePage (argHigh a) (argAddr a)
  else .discoverSize a

/-- The operation a command word names; total (R68). -/
def decode (w : CmdWord) : Instr := decodeFields (cmdSel w) (cmdArg w)

/-- Why a number is not decoded. -/
inductive DecodeError where
  /-- The number does not fit the 35-bit command port (R60). Safe: no such word can be offered. -/
  | widerThanCommandPort
  deriving DecidableEq, Repr

/-- Decode a number offered as a command word: refused by name when it is wider than CMD (R60). -/
def decodeNat (w : Nat) : Except DecodeError Instr :=
  if isCommandWord w then .ok (decode (BitVec.ofNat 35 w)) else .error .widerThanCommandPort

/-- The command word of a table row's bits: bit 0 of the row is CMD[0], and a bit the table does not
give is 0. -/
def tableWord (nbits w : Nat) : Nat := w % 2 ^ nbits

/-- What the decoder reads from a table row's bits (none where it refuses). -/
def decodeTableWord (nbits w : Nat) : Option Instr :=
  match decodeNat (tableWord nbits w) with
  | .ok i => some i
  | .error _ => none

/-- The selector of an operation, numbered in the order the source presents them (R61). -/
def Instr.sel : Instr → Selector
  | .issueCmd _ _ => 0#3
  | .readStatus _ => 1#3
  | .enterUdpd _ => 2#3
  | .exitSleep _ => 3#3
  | .readPage _ _ => 4#3
  | .writePage _ _ => 5#3
  | .erasePage _ _ => 6#3
  | .discoverSize _ => 7#3

/-- The operand word of an operation, ignored bits included (R62). -/
def Instr.arg : Instr → Word
  | .issueCmd ign opb => ign ++ opb
  | .readStatus ign => ign
  | .enterUdpd ign => ign
  | .exitSleep ign => ign
  | .readPage ign addr => ign ++ addr
  | .writePage ign addr => ign ++ addr
  | .erasePage ign addr => ign ++ addr
  | .discoverSize ign => ign

/-- The command word of an operation: SEL above ARG (R60). -/
def encode (i : Instr) : CmdWord := i.sel ++ i.arg

end Sys2Proof
end

