-- ==== Sys2Proof/Config.lean ====
section
/-!
DEFINITION. What an instance of the block fixes (spec/00_scope.md R6), and the free values of the model
(spec/10_state.md R34, R35). The constants the source fixes (R4) stand in Machine/Operands.lean.

The eleven open parameters of R6 are the fields of `Config`; a state carries one, so a statement about
every state holds for every value of every parameter, and nothing gives them a value: at reset they are
the opaque `Config.given`.
-/

namespace Sys2Proof

/-- The eleven open parameters of R6: constants of an instance, which no operation changes (R153). -/
structure Config where
  /-- OP_READ, the wire opcode of READ_PAGE. -/
  opRead : Byte
  /-- OP_PP, the wire opcode of WRITE_PAGE. -/
  opPp : Byte
  /-- OP_PE, the wire opcode of ERASE_PAGE. -/
  opPe : Byte
  /-- OP_RDSR, the wire opcode of READ_STATUS. -/
  opRdsr : Byte
  /-- OP_SFDP, the wire opcode of DISCOVER_SIZE. -/
  opSfdp : Byte
  /-- OP_UDPD, the wire opcode of ENTER_UDPD. -/
  opUdpd : Byte
  /-- OP_RDP, the wire opcode of EXIT_SLEEP. -/
  opRdp : Byte
  /-- DUMMY_BYTE, sent on every exchange whose purpose is to receive. -/
  dummyByte : Byte
  /-- WAKE_SPIN_COUNT, the length of the post-wake spin in spin ticks (no unit of time). -/
  wakeSpinCount : Nat
  /-- T_CAN_FAULT, whether the transport can answer an exchange with `Fault`. -/
  tCanFault : Bool
  /-- CS_ACTIVE_LEVEL, the electrical level of an asserted chip-select; read by no rule. -/
  csActiveLevel : Bool
  deriving DecidableEq, Repr, Inhabited

/-- DESIGN CHOICE (log entry 1). The parameters of the machine that comes out of reset: some value of
each, about which nothing can be proved (R6: "no rule assumes a value"). Safe. -/
opaque Config.given : Config

/-- The registers R34 leaves unspecified after reset and that no one reads before the framer has
written them (R31), with the two result registers. -/
structure PowerOn where
  opr : Selector
  ar : Word
  ix : Index
  resCode : BitVec 2
  resVal : Word
  h : Byte
  acc : Word
  sr : Byte
  wcnt : Nat
  deriving DecidableEq, Repr, Inhabited

/-- DESIGN CHOICE (log entry 7). What the unspecified registers hold after reset (R34): some value of
each, the same at every reset, about which nothing can be proved. -/
opaque Config.powerOn : PowerOn

/-- FREE VALUE (R35, log entry 8): the byte a read of an unwritten BUF byte gives at the n-th draw.
Safe: nothing constrains it. -/
opaque Config.freeByte : Nat → Byte

/-- FREE VALUE (R23, R35, log entry 8): what a host read of RES_CODE gives at the n-th draw while
RES_VALID = 0. Safe: nothing constrains it. -/
opaque Config.freeCode : Nat → BitVec 2

/-- FREE VALUE (R23, R35, log entry 8): what a host read of RES_VAL gives at the n-th draw while
RES_VALID = 0. Safe: nothing constrains it. -/
opaque Config.freeWord : Nat → Word

end Sys2Proof
end

