-- ==== Sys2Proof/Machine/State.lean ====
section
/-!
DEFINITION. The state of the framer (spec/10_state.md section 1: "exactly the registers of this table;
nothing else is state"), the parameters of its step relation that the fixed form of `exec` makes part of
the state (spec/00_scope.md R6, R11, R12), the reasons a step can stop, and the state after reset (R34).
-/

namespace Sys2Proof.Machine

/-- The eleven phases of the sequencer (R17). -/
inductive Phase where
  | idle | select | opc | addr | data | hdr | align | skip | size | deselect | wake
  deriving DecidableEq, Repr

/-- The events of the wire history (R11, R12). -/
inductive WireEvent where
  /-- `CsA`: the chip-select is asserted. -/
  | csA
  /-- `CsD`: the chip-select is deasserted. -/
  | csD
  /-- `X(tx, rx)`: an exchange that the transport answered `Ok(rx)`. -/
  | x (tx rx : Byte)
  /-- `XF(tx)`: an exchange that the transport answered `Fault`. -/
  | xf (tx : Byte)
  /-- `Spin(n)`: the post-wake spin of n ticks. -/
  | spin (n : Nat)
  deriving DecidableEq, Repr

/-- An answer of the transport to one exchange (R11, R83). -/
inductive Answer where
  /-- `Ok(rx)`: the byte that came back. -/
  | ok (rx : Byte)
  /-- `Fault`; an answer only of a transport with T_CAN_FAULT. -/
  | fault
  deriving DecidableEq, Repr

/-- A step of the host (R15, R20), a read of its always readable registers (spec/10_state.md section 1),
or the platform's reset (R150). -/
inductive HostStep where
  /-- `issue(CMD)`: offer a command word (R15). -/
  | issue (cmd : CmdWord)
  /-- `hostRead(i)`: read BUF[i] (R20). -/
  | hostRead (i : Byte)
  /-- `hostWrite(i, v)`: write BUF[i] (R20). -/
  | hostWrite (i v : Byte)
  /-- Read BUSY, RES_VALID, RES_CODE and RES_VAL, which the host may always do. -/
  | readResult
  /-- The reset of R34, R150 and R151. -/
  | reset
  deriving DecidableEq, Repr

/-- What a read of the host returned. -/
inductive HostValue where
  /-- `hostRead(i)` returned `v`. -/
  | bufByte (i v : Byte)
  /-- A read of the result registers returned these values. -/
  | result (busy valid : Bool) (code : BitVec 2) (val : Word)
  deriving DecidableEq, Repr

/-- The page buffer as data: the bytes something has written, by index, indexes strictly rising; a byte
nothing has written since reset is not listed and holds no value (R34, R35). -/
abbrev Memory := List Host.Cell

/-- The state of the framer and of the environment it meets. -/
structure State where
  /-- BUSY: an operation is in progress (R14). -/
  busy : Bool
  /-- OPR: selector of the operation in progress (R16). -/
  opr : Selector
  /-- AR: operand of the operation in progress (R16). -/
  ar : Word
  /-- PH: sequencer phase (R17). -/
  ph : Phase
  /-- IX: sequencer index within the phase (R17). -/
  ix : Index
  /-- BUF[0..255]: the page buffer (R19, R20). -/
  buf : Memory
  /-- RES_VALID: RES_CODE and RES_VAL belong to the last accepted operation (R23). -/
  resValid : Bool
  /-- RES_CODE: completion code (R21). -/
  resCode : BitVec 2
  /-- RES_VAL: returned value (R22). -/
  resVal : Word
  /-- FLT: a transport fault occurred in the operation in progress (R24). -/
  flt : Bool
  /-- CS: chip-select output, true = asserted (R25). -/
  cs : Bool
  /-- H: SFDP header size field (R26). -/
  h : Byte
  /-- ACC: SFDP size accumulator (R27). -/
  acc : Word
  /-- SR: status byte held until completion (R28). -/
  sr : Byte
  /-- WCNT: remaining spin ticks (R29); its width WAKE_W is whatever holds WAKE_SPIN_COUNT. -/
  wcnt : Nat
  /-- WIRE: the wire history, oldest event first (R12). -/
  wire : List WireEvent
  /-- The eleven parameters of the instance (R6). -/
  cfg : Config
  /-- The model's own: the transport's answers not yet consumed, oldest first; when none is left the
  next exchange is not answered (R83, R139). -/
  answers : List Answer
  /-- The model's own: the host's steps not yet taken, oldest first (R148). -/
  host : List HostStep
  /-- The model's own: what the host's reads returned, oldest first (R20). -/
  seen : List HostValue
  /-- The model's own: how many draws have been made (R35). -/
  draws : Nat
  /-- The model's own: how the turns fall while an operation is in progress (R36, R84), next turn first.
  An entry k ends a step of the machine after k framer steps; an entry 0 found there is a turn of the host.
  With no entry left the framer goes on until the operation completes or waits (log entry 18). -/
  turns : List Nat
  deriving DecidableEq, Repr

/-- Why the machine stops. -/
inductive Fault where
  /-- Raised by `Sys2Proof.Machine.step` and by the meanings when the sequencer stands at a position
  (PH, IX, OPR) that the transition table does not list, or at an exchange with CS = 0. R85 calls every
  such position unreachable and gives it no step, so this is a stuck state under a name. Safe: no run from
  an idle state comes to it, and the model stops where the spec says nothing. -/
  | unlistedPosition
  deriving DecidableEq, Repr

/-- Why an instruction has no meaning. -/
inductive Refusal where
  /-- Answered only by an arm of `exec` whose instruction has no meaning yet. Safe. No arm answers it. -/
  | notModelled (mnemonic : String)
  deriving DecidableEq, Repr

/-- The outcome of a step of this machine. -/
abbrev Outcome := Host.Outcome State Fault Refusal

/-- The machine right after reset (R34): BUSY, RES_VALID, FLT and CS are 0, PH is IDLE, WIRE is empty,
no byte of BUF has been written; the registers R34 leaves unspecified hold opaque values, as do the
parameters. The environment has done nothing yet. -/
def State.reset : State where
  busy := false
  opr := Config.powerOn.opr
  ar := Config.powerOn.ar
  ph := .idle
  ix := Config.powerOn.ix
  buf := []
  resValid := false
  resCode := Config.powerOn.resCode
  resVal := Config.powerOn.resVal
  flt := false
  cs := false
  h := Config.powerOn.h
  acc := Config.powerOn.acc
  sr := Config.powerOn.sr
  wcnt := Config.powerOn.wcnt
  wire := []
  cfg := Config.given
  answers := []
  host := []
  seen := []
  draws := 0
  turns := []

end Sys2Proof.Machine
end

