-- ==== Sys2Proof/Machine/Ops.lean ====
section
/-!
DEFINITION. The named operations: the page buffer (spec/00_scope.md R10), the primitives of the framer
(R11), taking the one exception and leaving it (spec/60_exceptions.md R131, R138), and the draws
(spec/10_state.md R35).
-/

namespace Sys2Proof.Machine

/-! ### The page buffer as data -/

/-- The byte at index `a`, if something has written it. -/
def Memory.read : Memory → Nat → Option Byte
  | [], _ => none
  | (b, w) :: m, a => if b = a then some w else Memory.read m a

/-- Put `v` at index `a`, keeping the indexes rising. -/
def Memory.write : Memory → Nat → Byte → Memory
  | [], a, v => [(a, v)]
  | (b, w) :: m, a, v =>
    if a < b then (a, v) :: (b, w) :: m
    else if a = b then (a, v) :: m
    else (b, w) :: Memory.write m a v

/-- The canonical form from index `lo` up: indexes at least `lo`, strictly rising, below 256 (R19). -/
def Memory.wfFrom : Nat → Memory → Bool
  | _, [] => true
  | lo, (a, _) :: m => decide (lo ≤ a) && decide (a < 256) && Memory.wfFrom (a + 1) m

/-- The canonical form of the page buffer: indexes strictly rising, all of 0 to 255. -/
def Memory.wf (m : Memory) : Bool := Memory.wfFrom 0 m

/-! ### Draws -/

/-- `MemRead(i, 1)`, which is `BUF[i]` (R10): the byte held, or a draw when nothing has written it since
reset (R35), and the state after the read. -/
def bufRead (i : Nat) (s : State) : Byte × State :=
  match Memory.read s.buf i with
  | some v => (v, s)
  | none => (Config.freeByte s.draws, { s with draws := s.draws + 1 })

/-- `MemWrite(i, 1, v)`, which is `BUF[i] <- v` (R10). -/
def bufWrite (i : Nat) (v : Byte) (s : State) : State :=
  { s with buf := Memory.write s.buf i v }

/-! ### The primitives of the framer (R11) -/

/-- Append an event to the wire history (R12). -/
def logEvent (e : WireEvent) (s : State) : State := { s with wire := s.wire ++ [e] }

/-- `(PH, IX) <- (p, k)`, the instance of `pc <- target` (R10). -/
def goto (p : Phase) (k : Index) (s : State) : State := { s with ph := p, ix := k }

/-- `CsAssert()` (R11). -/
def csAssert (s : State) : State := logEvent .csA { s with cs := true }

/-- `CsDeassert()` (R11). -/
def csDeassert (s : State) : State := logEvent .csD { s with cs := false }

/-- `Spin(WAKE_SPIN_COUNT)` (R11, R94): one event (R166), after which WCNT has counted down to 0
(R29, R124 f; log entry 10). -/
def spinWake (s : State) : State :=
  logEvent (.spin s.cfg.wakeSpinCount) { s with wcnt := 0 }

/-- `Complete(code, val)` (R11): writes RES_CODE and RES_VAL, sets RES_VALID, clears BUSY and returns
the sequencer to idle (IX is left as it is, log entry 14). -/
def complete (code : BitVec 2) (val : Word) (s : State) : State :=
  { s with resCode := code, resVal := val, resValid := true, busy := false, ph := .idle }

/-! ### The exception -/

/-- Taking the exception TransportFault at `Xfer(tx)` (R131): `XF(tx)` on the wire, no destination
register written, `FLT <- 1`, `(PH, IX) <- (DESELECT, 0)`. -/
def faultEntry (tx : Byte) (s : State) : State :=
  goto .deselect 0 (logEvent (.xf tx) { s with flt := true })

/-- The end of a faulted operation, `Complete(1, 0)` with no spin (R131). There is no return instruction
(R138): this is all of the return. -/
def faultExit (s : State) : State := complete 1 0 s

/-! ### The exchange -/

/-- What one step of the framer comes to. -/
inductive FramerMove where
  /-- The step was taken. -/
  | moved (s : State)
  /-- The step waits for the transport's answer (R83, R139). -/
  | waiting
  /-- The transition table has no row for the position (R85). -/
  | noRow
  deriving DecidableEq, Repr

/-- The transport's answer to the exchange at hand, and the state with it consumed; none while the
transport has not answered. A transport without T_CAN_FAULT never answers `Fault` (R6, R11; log
entry 3). -/
def takeAnswer (s : State) : Option (Answer × State) :=
  match s.answers with
  | [] => none
  | .ok rx :: rest => some (.ok rx, { s with answers := rest })
  | .fault :: rest => if s.cfg.tCanFault then some (.fault, { s with answers := rest }) else none

/-- One step `rx <- Xfer(tx)` (R83) with `onOk` the row's register write and move. It is enabled only
while CS = 1; an unanswered exchange waits; `Ok(rx)` logs `X(tx, rx)` and goes on; `Fault` takes the
exception. -/
def xfer (tx : Byte) (onOk : Byte → State → State) (s : State) : FramerMove :=
  if s.cs then
    match takeAnswer s with
    | none => .waiting
    | some (.ok rx, t) => .moved (onOk rx (logEvent (.x tx rx) t))
    | some (.fault, t) => .moved (faultEntry tx t)
  else .noRow

end Sys2Proof.Machine
end

