-- ==== Sys2Proof/Machine/Flags.lean ====
section
/-!
DEFINITION. The flags of this hardware are BUSY, RES_VALID, FLT and CS (spec/10_state.md R14, R23, R24,
R25); there are no condition codes, and no arithmetic sets a flag (R124). CS belongs to `csAssert` and
`csDeassert`, FLT = 1 to `faultEntry`, BUSY = 0 and RES_VALID = 1 to `complete`; here stands the
operation that sets the others, acceptance.
-/

namespace Sys2Proof.Machine

/-- Acceptance of a command word (R15), as one atomic step:
`OPR <- CMD[34:32]; AR <- CMD[31:0]; BUSY <- 1; RES_VALID <- 0; FLT <- 0; ACC <- 0;
(PH, IX) <- (SELECT, 0)`. It touches no other state and causes no wire event. -/
def accept (sel : Selector) (arg : Word) (s : State) : State :=
  { s with opr := sel, ar := arg, busy := true, resValid := false, flt := false, acc := 0,
           ph := .select, ix := 0 }

end Sys2Proof.Machine
end

