-- ==== Sys2Proof/Machine/Operands.lean ====
section
/-!
DEFINITION. The constants the source fixes (spec/00_scope.md R4), every operand form (spec/30_encoding.md
R62, R65; spec/40_framing.md R86) and all the arithmetic the framer performs (spec/43_size_discovery.md
R124).
-/

namespace Sys2Proof.Machine

/-- PAGE_BYTES: bytes moved by one page read or page write (R4). -/
def pageBytes : Nat := 256

/-- ADDR_BYTES: address bytes on the wire (R4). -/
def addrBytes : Nat := 3

/-- SFDP_HDR_READS: header bytes read, the last one kept (R4, R116). -/
def sfdpHdrReads : Nat := 11

/-- SFDP_ALIGN_READS: bytes read and discarded after the header (R4, R117). -/
def sfdpAlignReads : Nat := 1

/-- SFDP_SKIP_SHIFT of the skip count `(H << 3) + 4` (R4, R118). -/
def sfdpSkipShift : Nat := 3

/-- SFDP_SKIP_BIAS of the skip count `(H << 3) + 4` (R4, R118). -/
def sfdpSkipBias : Index := 4#11

/-- SFDP_SIZE_BYTES: bytes of the size field (R4, R120). -/
def sfdpSizeBytes : Nat := 4

/-- SIZE_INC: added to the assembled size field (R4, R121). -/
def sizeInc : Word := 1#32

/-- SIZE_SHIFT: right shift of the result (R4, R122). -/
def sizeShift : Nat := 13

/-- The index of the last exchange of a phase of `n` exchanges. -/
def lastIx (n : Nat) : Index := BitVec.ofNat 11 (n - 1)

/-- `AR[23:16]`, the first address byte on the wire (R41, R65). -/
def addrHi (ar : Word) : Byte := ar.extractLsb' 16 8

/-- `AR[15:8]`, the second address byte on the wire (R41, R65). -/
def addrMid (ar : Word) : Byte := ar.extractLsb' 8 8

/-- `AR[7:0]`, the third address byte on the wire (R41, R65), and the wire opcode of ISSUE_CMD (R62). -/
def addrLo (ar : Word) : Byte := ar.extractLsb' 0 8

/-- `OpByte`, the byte sent by phase OPC, a function of OPR and AR (R86). -/
def opByte (c : Config) (opr : Selector) (ar : Word) : Byte :=
  if opr = 0#3 then addrLo ar
  else if opr = 1#3 then c.opRdsr
  else if opr = 2#3 then c.opUdpd
  else if opr = 3#3 then c.opRdp
  else if opr = 4#3 then c.opRead
  else if opr = 5#3 then c.opPp
  else if opr = 6#3 then c.opPe
  else c.opSfdp

/-- The status byte as a result, `zext_32(SR)` (R22, R66). -/
def statusResult (sr : Byte) : Word := sr.zeroExtend 32

/-- The skip count `N = (zext_11(H) << 3) + 4`, exact in 11 bits (R118, R124 b). -/
def skipCount (h : Byte) : Index := ((h.zeroExtend 11) <<< sfdpSkipShift) + sfdpSkipBias

/-- One accumulation, `(ACC >> 8) | (zext_32(rx) << 24)` (R120, R124 c). -/
def accStep (acc : Word) (rx : Byte) : Word := (acc >>> 8) ||| ((rx.zeroExtend 32) <<< 24)

/-- The increment, `(ACC + 1) mod 2^32` (R121, R124 d). -/
def accInc (acc : Word) : Word := acc + sizeInc

/-- The size result, `ACC >> 13`, logical (R122, R124 e). -/
def sizeResult (acc : Word) : Word := acc >>> sizeShift

end Sys2Proof.Machine
end

