-- ==== Sys2Proof/Machine/Sequencer.lean ====
section
/-!
DEFINITION. The rows of the transition table (spec/40_framing.md R85) that several operations share, and
running an operation. Each operation's own column of the table stands in its family's file.
-/

namespace Sys2Proof.Machine

/-- Phase SELECT: `CsAssert()`, then (OPC, 0). -/
def selectRow (s : State) : FramerMove :=
  if s.ix = 0 then .moved (goto .opc 0 (csAssert s)) else .noRow

/-- Phase OPC: `_ <- Xfer(OpByte)`, then the phase `next`. -/
def opcRow (next : Phase) (s : State) : FramerMove :=
  if s.ix = 0 then xfer (opByte s.cfg s.opr s.ar) (fun _ t => goto next 0 t) s else .noRow

/-- Phase ADDR: the three address bytes, most significant first (R41), then the phase `next`. -/
def addrRow (next : Phase) (s : State) : FramerMove :=
  if s.ix = 0 then xfer (addrHi s.ar) (fun _ t => goto .addr 1 t) s
  else if s.ix = 1 then xfer (addrMid s.ar) (fun _ t => goto .addr 2 t) s
  else if s.ix = 2 then xfer (addrLo s.ar) (fun _ t => goto next 0 t) s
  else .noRow

/-- A counted phase of `n` exchanges of `tx` at phase `p`: each writes with `put` and counts IX up, the
last goes on to the phase `next` with `fin` done besides. -/
def countedRow (n : Nat) (p next : Phase) (tx : Byte) (put : Index → Byte → State → State)
    (fin : State → State) (s : State) : FramerMove :=
  if s.ix < lastIx n then xfer tx (fun rx t => goto p (s.ix + 1) (put s.ix rx t)) s
  else if s.ix = lastIx n then xfer tx (fun rx t => goto next 0 (fin (put s.ix rx t))) s
  else .noRow

/-- Phase DESELECT: `CsDeassert()`, then `Complete(1, 0)` if FLT = 1, else the operation's own end. -/
def deselectRow (done : State → State) (s : State) : FramerMove :=
  if s.ix = 0 then
    if s.flt then .moved (faultExit (csDeassert s)) else .moved (done (csDeassert s))
  else .noRow

/-- The most framer steps an operation takes after its acceptance (R87): one `CsA`, at most 2061
exchanges and one `CsD`. -/
def maxFramerSteps : Nat := 2063

/-- Take framer steps one after another, at most `fuel` of them, up to the completion of the operation
(BUSY = 0) or a wait for the transport (R84: each performs one primitive; an enabled one is eventually
taken). -/
def runRows (row : State → FramerMove) : Nat → State → Outcome
  | 0, s => .next s
  | fuel + 1, s =>
    match row s with
    | .moved t => if t.busy then runRows row fuel t else .next t
    | .waiting => .next s
    | .noRow => .fault .unlistedPosition

/-- The framer's turn: the steps the next entry of `turns` gives it, or without an entry all it can take
(R84; log entry 18). -/
def runTurn (row : State → FramerMove) (s : State) : Outcome :=
  runRows row (s.turns.headD maxFramerSteps) { s with turns := s.turns.tail }

/-- An operation with the column `row` of the transition table: acceptance, enabled iff BUSY = 0 (R15),
and the framer's turn after it. With the entry 0 at the head of `turns` that is the acceptance alone. While BUSY = 1 the command word is not accepted and nothing happens to it (R15,
R147; log entry 12). -/
def operate (row : State → FramerMove) (sel : Selector) (arg : Word) (s : State) : Outcome :=
  if s.busy then .next s else runTurn row (accept sel arg s)

end Sys2Proof.Machine
end

