-- ==== Sys2Proof/Machine/Discovery.lean ====
section
/-!
DEFINITION. DISCOVER_SIZE (spec/43_size_discovery.md R115 to R126).
-/

namespace Sys2Proof.Machine

/-- `H <- rx`, each of the eleven overwriting the last (R26, R116). -/
def putHeader (_ : Index) (rx : Byte) (s : State) : State := { s with h := rx }

/-- A byte received and discarded (R48, R117, R118). -/
def discard (_ : Index) (_ : Byte) (s : State) : State := s

/-- `ACC <- (ACC >> 8) | (zext_32(rx) << 24)` (R120). -/
def putSizeByte (_ : Index) (rx : Byte) (s : State) : State := { s with acc := accStep s.acc rx }

/-- `ACC <- (ACC + 1) mod 2^32` (R121). -/
def incSize (s : State) : State := { s with acc := accInc s.acc }

/-- `Complete(0, ACC >> 13)` (R122). -/
def completeSize (s : State) : State := complete 0 (sizeResult s.acc) s

/-- The rows of R85 for OPR 7. -/
def discoverSizeRow (s : State) : FramerMove :=
  match s.ph with
  | .select => selectRow s
  | .opc => opcRow .hdr s
  | .hdr => countedRow sfdpHdrReads .hdr .align s.cfg.dummyByte putHeader id s
  | .align => countedRow sfdpAlignReads .align .skip s.cfg.dummyByte discard id s
  | .skip => countedRow (skipCount s.h).toNat .skip .size s.cfg.dummyByte discard id s
  | .size => countedRow sfdpSizeBytes .size .deselect s.cfg.dummyByte putSizeByte incSize s
  | .deselect => deselectRow completeSize s
  | .idle | .addr | .data | .wake => .noRow

/-- DISCOVER_SIZE (R115): the seven steps of the SFDP walk in one window. -/
def execDiscoverSize (ign : Word) (s : State) : Outcome := operate discoverSizeRow 7#3 ign s

end Sys2Proof.Machine
end

