-- ==== Sys2Proof/Machine/Framing.lean ====
section
/-!
DEFINITION. ISSUE_CMD (spec/40_framing.md R88) and the column of the one-byte frame W-C, which
ENTER_UDPD shares.
-/

namespace Sys2Proof.Machine

/-- The rows of R85 for a frame of the opcode byte alone (W-C, R63), ending with `Complete(0, 0)`. -/
def oneByteRow (s : State) : FramerMove :=
  match s.ph with
  | .select => selectRow s
  | .opc => opcRow .deselect s
  | .deselect => deselectRow (complete 0 0) s
  | .idle | .addr | .data | .hdr | .align | .skip | .size | .wake => .noRow

/-- The rows of R85 for OPR 0. -/
def issueCmdRow (s : State) : FramerMove := oneByteRow s

/-- ISSUE_CMD (R88): `CsAssert(); _ <- Xfer(AR[7:0]); CsDeassert(); Complete(0, 0)`. -/
def execIssueCmd (ign : BitVec 24) (opb : Byte) (s : State) : Outcome :=
  operate issueCmdRow 0#3 (ign ++ opb) s

end Sys2Proof.Machine
end

