-- ==== Sys2Proof/Machine/PageOps.lean ====
section
/-!
DEFINITION. READ_PAGE, WRITE_PAGE and ERASE_PAGE (spec/42_page_ops.md R100 to R108).
-/

namespace Sys2Proof.Machine

/-- `BUF[k] <- rx` at the sequencer's index k (R19). -/
def putPageByte (k : Index) (rx : Byte) (s : State) : State := bufWrite k.toNat rx s

/-- The rows of R85 for OPR 4. -/
def readPageRow (s : State) : FramerMove :=
  match s.ph with
  | .select => selectRow s
  | .opc => opcRow .addr s
  | .addr => addrRow .data s
  | .data => countedRow pageBytes .data .deselect s.cfg.dummyByte putPageByte id s
  | .deselect => deselectRow (complete 0 0) s
  | .idle | .hdr | .align | .skip | .size | .wake => .noRow

/-- READ_PAGE (R100): opcode, three address bytes, 256 exchanges of DUMMY_BYTE that fill BUF in order. -/
def execReadPage (ign : Byte) (addr : FlashAddr) (s : State) : Outcome :=
  operate readPageRow 4#3 (ign ++ addr) s

/-- Phase DATA of WRITE_PAGE: `_ <- Xfer(BUF[k])`, the byte read at the step that sends it (R19), a draw
if nothing has written it (R35). A step that waits has read nothing. -/
def payloadRow (s : State) : FramerMove :=
  countedRow pageBytes .data .deselect (bufRead s.ix.toNat s).1 (fun _ _ t => t) id
    (bufRead s.ix.toNat s).2

/-- The rows of R85 for OPR 5. -/
def writePageRow (s : State) : FramerMove :=
  match s.ph with
  | .select => selectRow s
  | .opc => opcRow .addr s
  | .addr => addrRow .data s
  | .data => payloadRow s
  | .deselect => deselectRow (complete 0 0) s
  | .idle | .hdr | .align | .skip | .size | .wake => .noRow

/-- WRITE_PAGE (R102): opcode, three address bytes, the 256 bytes of BUF in order. -/
def execWritePage (ign : Byte) (addr : FlashAddr) (s : State) : Outcome :=
  operate writePageRow 5#3 (ign ++ addr) s

/-- The rows of R85 for OPR 6. -/
def erasePageRow (s : State) : FramerMove :=
  match s.ph with
  | .select => selectRow s
  | .opc => opcRow .addr s
  | .addr => addrRow .deselect s
  | .deselect => deselectRow (complete 0 0) s
  | .idle | .data | .hdr | .align | .skip | .size | .wake => .noRow

/-- ERASE_PAGE (R104): opcode and three address bytes. -/
def execErasePage (ign : Byte) (addr : FlashAddr) (s : State) : Outcome :=
  operate erasePageRow 6#3 (ign ++ addr) s

end Sys2Proof.Machine
end

