-- ==== Sys2Proof/Machine/StatusPower.lean ====
section
/-!
DEFINITION. READ_STATUS, ENTER_UDPD and EXIT_SLEEP (spec/41_status_sleep_wake.md R90 to R96).
-/

namespace Sys2Proof.Machine

/-- `SR <- rx` (R28). -/
def putStatus (rx : Byte) (s : State) : State := { s with sr := rx }

/-- `Complete(0, zext_32(SR))` (R90). -/
def completeStatus (s : State) : State := complete 0 (statusResult s.sr) s

/-- The rows of R85 for OPR 1. -/
def readStatusRow (s : State) : FramerMove :=
  match s.ph with
  | .select => selectRow s
  | .opc => opcRow .data s
  | .data =>
    if s.ix = 0 then xfer s.cfg.dummyByte (fun rx t => goto .deselect 0 (putStatus rx t)) s
    else .noRow
  | .deselect => deselectRow completeStatus s
  | .idle | .addr | .hdr | .align | .skip | .size | .wake => .noRow

/-- READ_STATUS (R90): `CsAssert(); _ <- Xfer(OP_RDSR); SR <- Xfer(DUMMY_BYTE); CsDeassert();
Complete(0, zext_32(SR))`. -/
def execReadStatus (ign : Word) (s : State) : Outcome := operate readStatusRow 1#3 ign s

/-- The rows of R85 for OPR 2. -/
def enterUdpdRow (s : State) : FramerMove := oneByteRow s

/-- ENTER_UDPD (R92): `CsAssert(); _ <- Xfer(OP_UDPD); CsDeassert(); Complete(0, 0)`. -/
def execEnterUdpd (ign : Word) (s : State) : Outcome := operate enterUdpdRow 2#3 ign s

/-- `WCNT <- WAKE_SPIN_COUNT`, then (WAKE, 0) (R29, R85). -/
def startWake (s : State) : State := goto .wake 0 { s with wcnt := s.cfg.wakeSpinCount }

/-- Phase WAKE: `Spin(WAKE_SPIN_COUNT); Complete(0, 0)` (R85, R94). -/
def wakeRow (s : State) : FramerMove :=
  if s.ix = 0 then .moved (complete 0 0 (spinWake s)) else .noRow

/-- The rows of R85 for OPR 3. -/
def exitSleepRow (s : State) : FramerMove :=
  match s.ph with
  | .select => selectRow s
  | .opc => opcRow .deselect s
  | .deselect => deselectRow startWake s
  | .wake => wakeRow s
  | .idle | .addr | .data | .hdr | .align | .skip | .size => .noRow

/-- EXIT_SLEEP (R93): `CsAssert(); _ <- Xfer(OP_RDP); CsDeassert(); Spin(WAKE_SPIN_COUNT);
Complete(0, 0)`. -/
def execExitSleep (ign : Word) (s : State) : Outcome := operate exitSleepRow 3#3 ign s

end Sys2Proof.Machine
end

