-- ==== Sys2Proof/Machine/Dispatch.lean ====
section
/-!
DEFINITION. One arm per operation (spec/00_scope.md R2, spec/30_encoding.md R61).
-/

namespace Sys2Proof.Machine

def exec (i : Instr) (s : State) : Host.Outcome State Fault Refusal :=
  match i with
  | .issueCmd ign opb => Sys2Proof.Machine.execIssueCmd ign opb s
  | .readStatus ign => Sys2Proof.Machine.execReadStatus ign s
  | .enterUdpd ign => Sys2Proof.Machine.execEnterUdpd ign s
  | .exitSleep ign => Sys2Proof.Machine.execExitSleep ign s
  | .readPage ign addr => Sys2Proof.Machine.execReadPage ign addr s
  | .writePage ign addr => Sys2Proof.Machine.execWritePage ign addr s
  | .erasePage ign addr => Sys2Proof.Machine.execErasePage ign addr s
  | .discoverSize ign => Sys2Proof.Machine.execDiscoverSize ign s

end Sys2Proof.Machine
end

