-- ==== Sys2Proof/Machine/Framer.lean ====
section
/-!
DEFINITION. The whole step relation of the framer (spec/40_framing.md R84, R85): the column of the
transition table that OPR names, and going on with an operation in progress.
-/

namespace Sys2Proof.Machine

/-- The column of the transition table for a selector (R85). -/
def rowsOf (opr : Selector) : State → FramerMove :=
  if opr = 0#3 then issueCmdRow
  else if opr = 1#3 then readStatusRow
  else if opr = 2#3 then enterUdpdRow
  else if opr = 3#3 then exitSleepRow
  else if opr = 4#3 then readPageRow
  else if opr = 5#3 then writePageRow
  else if opr = 6#3 then erasePageRow
  else discoverSizeRow

/-- One step of the framer: the primitive named by (PH, IX), and the move to the next row (R84). -/
def framerStep (s : State) : FramerMove := rowsOf s.opr s

/-- The framer's turn in an operation in progress. -/
def resume (s : State) : Outcome := runTurn framerStep s

end Sys2Proof.Machine
end

