-- ==== Sys2Proof/Machine/HostPort.lean ====
section
/-!
DEFINITION. The host's steps (spec/10_state.md R15, R20, R35, R36; spec/70_reset_and_hazards.md R150,
R151) and which agent moves (R36).
-/

namespace Sys2Proof.Machine

/-- The host takes its first step from its list. -/
def popHost (s : State) : State := { s with host := s.host.tail }

/-- A read of the host returns `v`. -/
def returnToHost (v : HostValue) (s : State) : State := { s with seen := s.seen ++ [v] }

/-- `hostRead(i)`: returns BUF[i], a draw if nothing has written it (R20, R35). -/
def hostReadBuf (i : Byte) (s : State) : State :=
  returnToHost (.bufByte i (bufRead i.toNat s).1) (bufRead i.toNat s).2

/-- `hostWrite(i, v)`: `BUF[i] <- v` (R20). -/
def hostWriteBuf (i v : Byte) (s : State) : State := bufWrite i.toNat v s

/-- The host reads BUSY, RES_VALID, RES_CODE and RES_VAL; the last two are draws while RES_VALID = 0
(R23, R35). -/
def hostReadResult (s : State) : State :=
  if s.resValid then returnToHost (.result s.busy true s.resCode s.resVal) s
  else
    returnToHost (.result s.busy false (Config.freeCode s.draws) (Config.freeWord s.draws))
      { s with draws := s.draws + 1 }

/-- The reset (R34, R150, R151): the framer is as after reset, WIRE empty, nothing in BUF; the
parameters, the host's remaining steps, what it has read, the count of draws and the turns are not the
framer's and stay (log entry 9). DESIGN CHOICE (log entry 9): the spec does not say whether the transport
answers after a reset that abandoned an operation; the answers it had left stay for the exchanges of later
operations, and with none left it answers no more. -/
def resetFramer (s : State) : State :=
  { State.reset with cfg := s.cfg, answers := s.answers, host := s.host, seen := s.seen,
                     draws := s.draws, turns := s.turns }

/-- The host's turn while BUSY = 0: all its steps are enabled (R36); an offered command word is accepted
and its operation runs (R15). With no step left the framer waits in IDLE (R34). -/
def hostTurn (s : State) : Outcome :=
  match s.host with
  | [] => .next s
  | .issue w :: _ => exec (decode w) (popHost s)
  | .hostRead i :: _ => .next (hostReadBuf i (popHost s))
  | .hostWrite i v :: _ => .next (hostWriteBuf i v (popHost s))
  | .readResult :: _ => .next (hostReadResult (popHost s))
  | .reset :: _ => .next (resetFramer (popHost s))

/-- The host's turn while BUSY = 1: only the always readable registers and the reset are open to it; any
other step waits (R15, R20, R139, R147, R151). -/
def hostTurnBusy (s : State) : Outcome :=
  match s.host with
  | [] => .next s
  | .issue _ :: _ => .next s
  | .hostRead _ :: _ => .next s
  | .hostWrite _ _ :: _ => .next s
  | .readResult :: _ => .next (hostReadResult (popHost s))
  | .reset :: _ => .next (resetFramer (popHost s))

/-- The turn while BUSY = 1 (R36): where the framer's one step is enabled, the host's turn if the next
entry of `turns` is 0, else the framer's (log entry 18); where it waits for the transport, the host's. -/
def busyTurn (s : State) : Outcome :=
  match framerStep s with
  | .moved _ =>
    match s.turns with
    | 0 :: ts => hostTurnBusy { s with turns := ts }
    | (_ + 1) :: _ => resume s
    | [] => resume s
  | .waiting => hostTurnBusy s
  | .noRow => .fault .unlistedPosition

/-- Offer a command word as the host's next step, to an idle framer: BUSY = 0 with PH = IDLE and CS = 0,
which acceptance needs (R15, R36). On an idle state only the host's list changes. -/
def offerCommand (w : CmdWord) (s : State) : State :=
  { s with host := .issue w :: s.host, busy := false, ph := .idle, cs := false }

end Sys2Proof.Machine
end

