-- ==== Sys2Proof/Machine/Step.lean ====
section
/-!
DEFINITION. One step of the machine: the host's turn while BUSY = 0, the framer's while BUSY = 1
(spec/10_state.md R36).
-/

namespace Sys2Proof.Machine

/-- One step of the machine. -/
def step (s : State) : Host.Outcome State Fault Refusal :=
  if s.busy then busyTurn s else hostTurn s

/-- The state with the instruction of a table row's bits offered at the command port, as the host's next
step (log entry 13). -/
def State.withFetchWord (s : State) (nbits w : Nat) : State :=
  offerCommand (BitVec.ofNat 35 (tableWord nbits w)) s

end Sys2Proof.Machine
end

