-- ==== Sys2Proof/Machine/Table.lean ====
section
/-!
DEFINITION. The transition table of spec/40_framing.md R85, transcribed row by row as a relation, with
the fault exit of spec/60_exceptions.md R131. No step of the machine uses it; the claims compare
`framerStep` with it.
-/

namespace Sys2Proof.Machine

/-- The rows with an `Xfer`: from `s` the byte `tx` is sent, and with the returned byte `rx` the state,
once the exchange has been logged and its answer consumed, becomes `put rx` of it. `d` counts the draws
made to find `tx`: 1 for a byte of BUF nothing has written (R35), else 0. -/
inductive XferRow (s : State) : (d : Nat) → (tx : Byte) → (put : Byte → State → State) → Prop where
  | opcToDeselect (hp : s.ph = .opc) (hi : s.ix = 0) (ho : s.opr = 0#3 ∨ s.opr = 2#3 ∨ s.opr = 3#3) :
    XferRow s 0 (opByte s.cfg s.opr s.ar) fun _ t => { t with ph := .deselect, ix := 0 }
  | opcToData (hp : s.ph = .opc) (hi : s.ix = 0) (ho : s.opr = 1#3) :
    XferRow s 0 (opByte s.cfg s.opr s.ar) fun _ t => { t with ph := .data, ix := 0 }
  | opcToAddr (hp : s.ph = .opc) (hi : s.ix = 0) (ho : s.opr = 4#3 ∨ s.opr = 5#3 ∨ s.opr = 6#3) :
    XferRow s 0 (opByte s.cfg s.opr s.ar) fun _ t => { t with ph := .addr, ix := 0 }
  | opcToHdr (hp : s.ph = .opc) (hi : s.ix = 0) (ho : s.opr = 7#3) :
    XferRow s 0 (opByte s.cfg s.opr s.ar) fun _ t => { t with ph := .hdr, ix := 0 }
  | addr0 (hp : s.ph = .addr) (hi : s.ix = 0) (ho : s.opr = 4#3 ∨ s.opr = 5#3 ∨ s.opr = 6#3) :
    XferRow s 0 (s.ar.extractLsb' 16 8) fun _ t => { t with ph := .addr, ix := 1 }
  | addr1 (hp : s.ph = .addr) (hi : s.ix = 1) (ho : s.opr = 4#3 ∨ s.opr = 5#3 ∨ s.opr = 6#3) :
    XferRow s 0 (s.ar.extractLsb' 8 8) fun _ t => { t with ph := .addr, ix := 2 }
  | addr2ToDeselect (hp : s.ph = .addr) (hi : s.ix = 2) (ho : s.opr = 6#3) :
    XferRow s 0 (s.ar.extractLsb' 0 8) fun _ t => { t with ph := .deselect, ix := 0 }
  | addr2ToData (hp : s.ph = .addr) (hi : s.ix = 2) (ho : s.opr = 4#3 ∨ s.opr = 5#3) :
    XferRow s 0 (s.ar.extractLsb' 0 8) fun _ t => { t with ph := .data, ix := 0 }
  | dataStatus (hp : s.ph = .data) (hi : s.ix = 0) (ho : s.opr = 1#3) :
    XferRow s 0 s.cfg.dummyByte fun rx t => { t with sr := rx, ph := .deselect, ix := 0 }
  | dataRead (hp : s.ph = .data) (hi : s.ix < 255) (ho : s.opr = 4#3) :
    XferRow s 0 s.cfg.dummyByte fun rx t =>
      { t with buf := Memory.write t.buf s.ix.toNat rx, ph := .data, ix := s.ix + 1 }
  | dataReadLast (hp : s.ph = .data) (hi : s.ix = 255) (ho : s.opr = 4#3) :
    XferRow s 0 s.cfg.dummyByte fun rx t =>
      { t with buf := Memory.write t.buf 255 rx, ph := .deselect, ix := 0 }
  | dataWrite (hp : s.ph = .data) (hi : s.ix < 255) (ho : s.opr = 5#3) (v : Byte)
      (hv : Memory.read s.buf s.ix.toNat = some v) :
    XferRow s 0 v fun _ t => { t with ph := .data, ix := s.ix + 1 }
  | dataWriteDraw (hp : s.ph = .data) (hi : s.ix < 255) (ho : s.opr = 5#3)
      (hv : Memory.read s.buf s.ix.toNat = none) :
    XferRow s 1 (Config.freeByte s.draws) fun _ t => { t with ph := .data, ix := s.ix + 1 }
  | dataWriteLast (hp : s.ph = .data) (hi : s.ix = 255) (ho : s.opr = 5#3) (v : Byte)
      (hv : Memory.read s.buf 255 = some v) :
    XferRow s 0 v fun _ t => { t with ph := .deselect, ix := 0 }
  | dataWriteLastDraw (hp : s.ph = .data) (hi : s.ix = 255) (ho : s.opr = 5#3)
      (hv : Memory.read s.buf 255 = none) :
    XferRow s 1 (Config.freeByte s.draws) fun _ t => { t with ph := .deselect, ix := 0 }
  | hdr (hp : s.ph = .hdr) (hi : s.ix < 10) (ho : s.opr = 7#3) :
    XferRow s 0 s.cfg.dummyByte fun rx t => { t with h := rx, ph := .hdr, ix := s.ix + 1 }
  | hdrLast (hp : s.ph = .hdr) (hi : s.ix = 10) (ho : s.opr = 7#3) :
    XferRow s 0 s.cfg.dummyByte fun rx t => { t with h := rx, ph := .align, ix := 0 }
  | align (hp : s.ph = .align) (hi : s.ix = 0) (ho : s.opr = 7#3) :
    XferRow s 0 s.cfg.dummyByte fun _ t => { t with ph := .skip, ix := 0 }
  | skip (hp : s.ph = .skip) (hi : s.ix < skipCount s.h - 1) (ho : s.opr = 7#3) :
    XferRow s 0 s.cfg.dummyByte fun _ t => { t with ph := .skip, ix := s.ix + 1 }
  | skipLast (hp : s.ph = .skip) (hi : s.ix = skipCount s.h - 1) (ho : s.opr = 7#3) :
    XferRow s 0 s.cfg.dummyByte fun _ t => { t with ph := .size, ix := 0 }
  | size (hp : s.ph = .size) (hi : s.ix < 3) (ho : s.opr = 7#3) :
    XferRow s 0 s.cfg.dummyByte fun rx t =>
      { t with acc := (t.acc >>> 8) ||| (rx.zeroExtend 32 <<< 24), ph := .size, ix := s.ix + 1 }
  | sizeLast (hp : s.ph = .size) (hi : s.ix = 3) (ho : s.opr = 7#3) :
    XferRow s 0 s.cfg.dummyByte fun rx t =>
      { t with acc := ((t.acc >>> 8) ||| (rx.zeroExtend 32 <<< 24)) + 1, ph := .deselect, ix := 0 }

/-- The state once an exchange of `tx` has been answered `Ok(rx)` with `d` draws made for it. -/
def exchanged (d : Nat) (tx rx : Byte) (rest : List Answer) (s : State) : State :=
  { s with wire := s.wire ++ [.x tx rx], answers := rest, draws := s.draws + d }

/-- The whole table: one step of the framer from `s` to `t`. -/
inductive TableRow (s : State) : State → Prop where
  /-- SELECT. -/
  | select (hp : s.ph = .select) (hi : s.ix = 0) :
    TableRow s { s with cs := true, wire := s.wire ++ [.csA], ph := .opc, ix := 0 }
  /-- A row with an `Xfer`, answered `Ok(rx)`. -/
  | ok (hc : s.cs = true) {d : Nat} {tx rx : Byte} {put : Byte → State → State} {rest : List Answer}
      (hr : XferRow s d tx put) (ha : s.answers = .ok rx :: rest) :
    TableRow s (put rx (exchanged d tx rx rest s))
  /-- The fault exit of a row with an `Xfer` (R131). -/
  | fault (hc : s.cs = true) {d : Nat} {tx : Byte} {put : Byte → State → State} {rest : List Answer}
      (hr : XferRow s d tx put) (ha : s.answers = .fault :: rest) (hf : s.cfg.tCanFault = true) :
    TableRow s { s with wire := s.wire ++ [.xf tx], answers := rest, draws := s.draws + d, flt := true,
                        ph := .deselect, ix := 0 }
  /-- DESELECT with FLT = 1: `Complete(1, 0)`. -/
  | deselectFault (hp : s.ph = .deselect) (hi : s.ix = 0) (hf : s.flt = true) :
    TableRow s { s with cs := false, wire := s.wire ++ [.csD], resCode := 1, resVal := 0,
                        resValid := true, busy := false, ph := .idle }
  /-- DESELECT of OPR 3: `WCNT <- WAKE_SPIN_COUNT`. -/
  | deselectWake (hp : s.ph = .deselect) (hi : s.ix = 0) (hf : s.flt = false) (ho : s.opr = 3#3) :
    TableRow s { s with cs := false, wire := s.wire ++ [.csD], wcnt := s.cfg.wakeSpinCount,
                        ph := .wake, ix := 0 }
  /-- DESELECT of OPR 1: `Complete(0, zext_32(SR))`. -/
  | deselectStatus (hp : s.ph = .deselect) (hi : s.ix = 0) (hf : s.flt = false) (ho : s.opr = 1#3) :
    TableRow s { s with cs := false, wire := s.wire ++ [.csD], resCode := 0,
                        resVal := s.sr.zeroExtend 32, resValid := true, busy := false, ph := .idle }
  /-- DESELECT of OPR 7: `Complete(0, ACC >> 13)`. -/
  | deselectSize (hp : s.ph = .deselect) (hi : s.ix = 0) (hf : s.flt = false) (ho : s.opr = 7#3) :
    TableRow s { s with cs := false, wire := s.wire ++ [.csD], resCode := 0,
                        resVal := s.acc >>> 13, resValid := true, busy := false, ph := .idle }
  /-- DESELECT of the others: `Complete(0, 0)`. -/
  | deselectDone (hp : s.ph = .deselect) (hi : s.ix = 0) (hf : s.flt = false)
      (ho : s.opr ≠ 1#3 ∧ s.opr ≠ 3#3 ∧ s.opr ≠ 7#3) :
    TableRow s { s with cs := false, wire := s.wire ++ [.csD], resCode := 0, resVal := 0,
                        resValid := true, busy := false, ph := .idle }
  /-- WAKE: `Spin(WAKE_SPIN_COUNT); Complete(0, 0)`; WCNT has counted down to 0 (R29). -/
  | wake (hp : s.ph = .wake) (hi : s.ix = 0) (ho : s.opr = 3#3) :
    TableRow s { s with wcnt := 0, wire := s.wire ++ [.spin s.cfg.wakeSpinCount], resCode := 0,
                        resVal := 0, resValid := true, busy := false, ph := .idle }

end Sys2Proof.Machine
end

