-- ==== Sys2Proof/Machine/WireFrame.lean ====
section
/-!
DEFINITION. The wire frames (spec/30_encoding.md R63, R67), written from the spec's own description of
them and used by no step of the machine: the claims compare what an operation puts on the wire with them.
-/

namespace Sys2Proof.Machine

/-- The transport answers with these bytes, in order. -/
def okAnswers (rs : List Byte) : List Answer := rs.map .ok

/-- The address bytes of a frame, `A2 = ADDR[23:16]`, `A1 = ADDR[15:8]`, `A0 = ADDR[7:0]` (R63). -/
def frameAddress (addr : FlashAddr) : List Byte :=
  [addr.extractLsb' 16 8, addr.extractLsb' 8 8, addr.extractLsb' 0 8]

/-- The next `n` payload bytes from index `k` on, as WRITE_PAGE reads them: the byte BUF holds, or the
next draw where nothing has written one (R19, R35). -/
def payloadFrom (buf : Memory) : Nat → Nat → Nat → List Byte
  | 0, _, _ => []
  | n + 1, k, d =>
    match Memory.read buf k with
    | some v => v :: payloadFrom buf n (k + 1) d
    | none => Config.freeByte d :: payloadFrom buf n (k + 1) (d + 1)

/-- How many of the `n` bytes from index `k` on nothing has written. -/
def unwritten (buf : Memory) : Nat → Nat → Nat
  | 0, _ => 0
  | n + 1, k =>
    match Memory.read buf k with
    | some _ => unwritten buf n (k + 1)
    | none => unwritten buf n (k + 1) + 1

/-- `[BUF[0], ..., BUF[255]]`, the payload of W-CAW (R63). -/
def payload (s : State) : List Byte := payloadFrom s.buf 256 0 s.draws

/-- The header size byte of a walk: the byte returned by exchange 11 (R63); before that exchange, 0. -/
def headerOf (rs : List Byte) : Byte := rs.getD 11 0

/-- How many exchanges the operation makes when the transport returns `rs` (R67). -/
def exchanges (i : Instr) (rs : List Byte) : Nat :=
  match i with
  | .issueCmd _ _ => 1
  | .readStatus _ => 2
  | .enterUdpd _ => 1
  | .exitSleep _ => 1
  | .readPage _ _ => 260
  | .writePage _ _ => 260
  | .erasePage _ _ => 4
  | .discoverSize _ => 21 + 8 * (headerOf rs).toNat

/-- The bytes the operation transmits, in order (R63). -/
def frameBytes (i : Instr) (s : State) (rs : List Byte) : List Byte :=
  match i with
  | .issueCmd _ opb => [opb]
  | .readStatus _ => [s.cfg.opRdsr, s.cfg.dummyByte]
  | .enterUdpd _ => [s.cfg.opUdpd]
  | .exitSleep _ => [s.cfg.opRdp]
  | .readPage _ addr => s.cfg.opRead :: frameAddress addr ++ List.replicate 256 s.cfg.dummyByte
  | .writePage _ addr => s.cfg.opPp :: frameAddress addr ++ payload s
  | .erasePage _ addr => s.cfg.opPe :: frameAddress addr
  | .discoverSize _ =>
    s.cfg.opSfdp :: List.replicate (20 + 8 * (headerOf rs).toNat) s.cfg.dummyByte

/-- The exchanges of the bytes `txs`, answered `rs` in order. -/
def exchangeEvents (txs rs : List Byte) : List WireEvent := List.zipWith .x txs rs

/-- What follows the select window of a completed operation: the spin of EXIT_SLEEP (R82). -/
def afterWindow (i : Instr) (s : State) : List WireEvent :=
  match i with
  | .exitSleep _ => [.spin s.cfg.wakeSpinCount]
  | .issueCmd _ _ | .readStatus _ | .enterUdpd _ | .readPage _ _ | .writePage _ _ | .erasePage _ _
  | .discoverSize _ => []

/-- The state after the operation `i` has completed from `s`, but for the operation's own registers: the
command latched (R15), the sequencer idle, `Complete(code, val)` done, these events on the wire and this
much of the transport's answers left. Every field not named is as before. -/
def finished (i : Instr) (code : BitVec 2) (val : Word) (events : List WireEvent)
    (rest : List Answer) (s : State) : State :=
  { s with opr := i.sel, ar := i.arg, busy := false, ph := .idle, ix := 0, acc := 0,
           flt := decide (code = 1), cs := false, resValid := true, resCode := code, resVal := val,
           wire := s.wire ++ events, answers := rest }

end Sys2Proof.Machine
end

