-- ==== Sys2Proof/Safety.lean ====
section
/-!
DEFINITION. What counts as a safe state: the invariants the spec states of the framer (spec/10_state.md
R17, R21 to R25, R36; spec/40_framing.md R81, R82, R85) and the shape of the wire history.
-/

namespace Sys2Proof.Machine

/-- The select window after an event: true while it is open; none where the event may not stand there
(a second `CsA`, a `CsD` without a window, an exchange outside a window, a spin inside one; R81, R82,
R94). -/
def windowAfter : Bool → WireEvent → Option Bool
  | false, .csA => some true
  | true, .csD => some false
  | true, .x _ _ => some true
  | true, .xf _ => some true
  | false, .spin _ => some false
  | true, .csA => none
  | false, .csD => none
  | false, .x _ _ => none
  | false, .xf _ => none
  | true, .spin _ => none

/-- The select window after a wire history, starting from `open_`. -/
def windowFrom (open_ : Bool) : List WireEvent → Option Bool
  | [] => some open_
  | e :: w =>
    match windowAfter open_ e with
    | some o => windowFrom o w
    | none => none

/-- The select window after a wire history that began deselected. -/
def windowOf (w : List WireEvent) : Option Bool := windowFrom false w

/-- The position (PH, IX) is one the transition table lists for OPR (R85). -/
def State.listed (s : State) : Bool :=
  match s.ph with
  | .idle => false
  | .select => decide (s.ix = 0)
  | .opc => decide (s.ix = 0)
  | .addr => (decide (s.opr = 4#3) || decide (s.opr = 5#3) || decide (s.opr = 6#3)) && decide (s.ix < 3#11)
  | .data =>
    (decide (s.opr = 1#3) && decide (s.ix = 0)) ||
      ((decide (s.opr = 4#3) || decide (s.opr = 5#3)) && decide (s.ix < 256#11))
  | .hdr => decide (s.opr = 7#3) && decide (s.ix < 11#11)
  | .align => decide (s.opr = 7#3) && decide (s.ix = 0)
  | .skip => decide (s.opr = 7#3) && decide (s.ix < skipCount s.h)
  | .size => decide (s.opr = 7#3) && decide (s.ix < 4#11)
  | .deselect => decide (s.ix = 0)
  | .wake => decide (s.opr = 3#3) && decide (s.ix = 0)

/-- Where CS stands in a phase: asserted from after SELECT until DESELECT has been done (R25, R80). -/
def Phase.selected : Phase → Bool
  | .idle => false
  | .select => false
  | .opc => true
  | .addr => true
  | .data => true
  | .hdr => true
  | .align => true
  | .skip => true
  | .size => true
  | .deselect => true
  | .wake => false

/-- In the state `s` the host acts, and `u` is `s` with the turn taken: while BUSY = 0 and where the framer
waits for the transport, `s` itself; where the framer's step is enabled, `s` without the entry 0 at the head
of its turns (R36; log entry 18). -/
def State.hostActsIn (s u : State) : Prop :=
  (u = s ∧ (s.busy = false ∨ framerStep s = .waiting)) ∨
  (s.busy = true ∧ (∃ t, framerStep s = .moved t) ∧ ∃ ts, s.turns = 0 :: ts ∧ u = { s with turns := ts })

/-- The invariant of the framer. -/
structure State.Inv (s : State) : Prop where
  /-- The page buffer is in canonical form. -/
  buf_wf : Memory.wf s.buf = true
  /-- BUSY = 0 exactly when the sequencer is in IDLE (R36). -/
  busy_iff : s.busy = false ↔ s.ph = .idle
  /-- CS is what the phase says; in particular CS = 0 whenever BUSY = 0 (R25). -/
  cs_eq : s.cs = s.ph.selected
  /-- While BUSY = 1 the sequencer is at a listed position (R85). -/
  listed_of_busy : s.busy = true → s.listed = true
  /-- RES_VALID is 0 from acceptance to completion (R23). -/
  invalid_of_busy : s.busy = true → s.resValid = false
  /-- A valid RES_CODE is 0 or 1 (R21). -/
  code_of_valid : s.resValid = true → s.resCode = 0 ∨ s.resCode = 1
  /-- A fault is under way only at DESELECT (R131), and with BUSY = 0 it is what the last result says (R132). -/
  flt_of_busy : s.busy = true → s.flt = true → s.ph = .deselect
  /-- FLT = 1 in an idle state with a result means that the result is TRANSPORT_FAULT, and the converse (R132). -/
  flt_of_valid : s.resValid = true → (s.flt = true ↔ s.resCode = 1)
  /-- After TRANSPORT_FAULT the returned value is 0 (R22). -/
  val_of_fault : s.resValid = true → s.resCode = 1 → s.resVal = 0
  /-- The wire history is a sequence of select windows, open exactly while CS = 1 (R81, R82). -/
  window_eq : windowOf s.wire = some s.cs

end Sys2Proof.Machine
end

