-- ==== Sys2Proof/Certificates/Slice0/Obligations.lean ====
section
/-!
DEFINITION. The statements for the provers. Each docstring names the rule of spec/ it formalises. A free
value (Config.freeByte and its like) and the transport's answers may be anything in every statement.
-/

open Sys2Proof Sys2Proof.Machine

/-! ### Encoding (spec/30_encoding.md) -/

/-- R60 to R62: decoding an encoded instruction gives it back, whatever its operand and its ignored
bits. -/
def Obligations.DecodeEncode : Prop := ∀ i : Instr, decode (encode i) = i

/-- R60, R62, R68: every command word is the encoding of what it decodes to; no bit is lost. -/
def Obligations.EncodeDecode : Prop := ∀ w : CmdWord, encode (decode w) = w

/-- R61: SEL selects the operation, in the order of the source, and is fully decoded. -/
def Obligations.SelectorNamesOperation : Prop :=
  ∀ w : CmdWord,
    (w.extractLsb' 32 3 = 0#3 → ∃ ign opb, decode w = .issueCmd ign opb) ∧
    (w.extractLsb' 32 3 = 1#3 → ∃ ign, decode w = .readStatus ign) ∧
    (w.extractLsb' 32 3 = 2#3 → ∃ ign, decode w = .enterUdpd ign) ∧
    (w.extractLsb' 32 3 = 3#3 → ∃ ign, decode w = .exitSleep ign) ∧
    (w.extractLsb' 32 3 = 4#3 → ∃ ign addr, decode w = .readPage ign addr) ∧
    (w.extractLsb' 32 3 = 5#3 → ∃ ign addr, decode w = .writePage ign addr) ∧
    (w.extractLsb' 32 3 = 6#3 → ∃ ign addr, decode w = .erasePage ign addr) ∧
    (w.extractLsb' 32 3 = 7#3 → ∃ ign, decode w = .discoverSize ign)

/-- Words of spec/95_test_vectors.md section 3.1, and the first number too wide for the port. -/
def Obligations.SampleCommandWords : Prop :=
  decodeNat 0x000000006 = .ok (.issueCmd 0 0x06) ∧
  decodeNat 0x0ABCDEF79 = .ok (.issueCmd 0xABCDEF 0x79) ∧
  decodeNat 0x1FFFFFFFF = .ok (.readStatus 0xFFFFFFFF) ∧
  decodeNat 0x200000000 = .ok (.enterUdpd 0) ∧
  decodeNat 0x300000000 = .ok (.exitSleep 0) ∧
  decodeNat 0x4FF123456 = .ok (.readPage 0xFF 0x123456) ∧
  decodeNat 0x500001000 = .ok (.writePage 0 0x001000) ∧
  decodeNat 0x600001000 = .ok (.erasePage 0 0x001000) ∧
  decodeNat 0x7DEADBEEF = .ok (.discoverSize 0xDEADBEEF) ∧
  decodeNat 0x800000000 = .error .widerThanCommandPort

/-! ### Operands and arithmetic (spec/40_framing.md R86, spec/43_size_discovery.md R120 to R122) -/

/-- R86: the byte sent by phase OPC, for each value of OPR. -/
def Obligations.OpByteBySelector : Prop :=
  (∀ (c : Config) (ar : Word),
    opByte c 0#3 ar = ar.extractLsb' 0 8 ∧ opByte c 1#3 ar = c.opRdsr ∧ opByte c 2#3 ar = c.opUdpd ∧
    opByte c 3#3 ar = c.opRdp ∧ opByte c 4#3 ar = c.opRead ∧ opByte c 5#3 ar = c.opPp ∧
    opByte c 6#3 ar = c.opPe ∧ opByte c 7#3 ar = c.opSfdp) ∧
  ∀ (s : State) (rx : Byte) (rest : List Answer),
    s.ph = .opc → s.ix = 0 → s.cs = true → s.answers = .ok rx :: rest →
    ∃ t, framerStep s = .moved t ∧ t.wire = s.wire ++ [.x (opByte s.cfg s.opr s.ar) rx]

/-- R41, R65 and the source's first property (spec/95_test_vectors.md S1): the three address bytes are
`(addr>>16)&0xFF, (addr>>8)&0xFF, addr&0xFF`, and operand bits above 23 reach none of them. -/
def Obligations.AddressBytesOfOperand : Prop :=
  ∀ (ign : Byte) (addr : FlashAddr),
    (addrHi (ign ++ addr)).toNat = (addr.toNat / 65536) % 256 ∧
    (addrMid (ign ++ addr)).toNat = (addr.toNat / 256) % 256 ∧
    (addrLo (ign ++ addr)).toNat = addr.toNat % 256

/-- R120: four accumulations assemble the size field little-endian, whatever ACC held before. -/
def Obligations.SizeFieldLittleEndian : Prop :=
  ∀ (acc : Word) (b0 b1 b2 b3 : Byte),
    accStep (accStep (accStep (accStep acc b0) b1) b2) b3 =
      (b3.zeroExtend 32 <<< 24) ||| (b2.zeroExtend 32 <<< 16) ||| (b1.zeroExtend 32 <<< 8) |||
        b0.zeroExtend 32

/-- R121: the step of the last size exchange leaves in ACC the assembled field N plus 1 modulo 2^32 and
goes to the deselect; the field 0xFFFFFFFF gives 0. -/
def Obligations.SizeIncrementWraps : Prop :=
  (∀ (s : State) (rx : Byte) (rest : List Answer),
    s.opr = 7#3 → s.ph = .size → s.ix = 3 → s.cs = true → s.answers = .ok rx :: rest →
    ∃ t, framerStep s = .moved t ∧ t.ph = .deselect ∧ t.ix = 0 ∧
      t.acc.toNat = ((accStep s.acc rx).toNat + 1) % 2 ^ 32) ∧
  accInc 0xFFFFFFFF = 0

/-- R122: the deselect of an unfaulted DISCOVER_SIZE completes, with code OK and with the floor of
ACC / 8192 as RES_VAL, at most 0x7FFFF; bit 31 is data. -/
def Obligations.SizeResultIsFloor : Prop :=
  (∀ s : State, s.opr = 7#3 → s.ph = .deselect → s.ix = 0 → s.flt = false →
    ∃ t, framerStep s = .moved t ∧ t.busy = false ∧ t.ph = .idle ∧ t.resValid = true ∧ t.resCode = 0 ∧
      t.resVal = s.acc >>> 13 ∧ t.resVal.toNat = s.acc.toNat / 8192 ∧ t.resVal.toNat ≤ 0x7FFFF) ∧
  sizeResult 0x80000000 = 0x40000

/-! ### The sequencer (spec/40_framing.md R84 to R87) -/

/-- R85 with R131's fault exit: the framer's step is exactly the transition table. What R85 leaves open
is the model's in both: the draws of unwritten payload bytes (log entry 8), WCNT = 0 after WAKE (log
entry 10), IX left as it is in IDLE (log entry 14). -/
def Obligations.TransitionTable : Prop := ∀ s t : State, framerStep s = .moved t ↔ TableRow s t

/-- R84: a step of the framer produces exactly one wire event, after those before it. -/
def Obligations.FramerStepOneEvent : Prop :=
  ∀ s t : State, framerStep s = .moved t → ∃ e, t.wire = s.wire ++ [e]

/-- spec/10_state.md sections 2 to 6: which step of the framer, by operation and phase, may write which
register: OPR and AR none (R16); BUF[IX] only DATA of READ_PAGE (R19); RES_CODE, RES_VAL, RES_VALID and BUSY
only DESELECT and WAKE, and not where the operation goes on (R21 to R23); FLT only a fault exit, which goes
to (DESELECT, 0) (R24); CS only SELECT and DESELECT (R25); H only HDR (R26), ACC only SIZE (R27), SR only
DATA of READ_STATUS (R28), WCNT only DESELECT and WAKE of EXIT_SLEEP (R29). The count of draws (log entry
8) moves only in DATA of WRITE_PAGE. -/
def Obligations.RegisterWriters : Prop :=
  ∀ s t : State, framerStep s = .moved t →
    t.opr = s.opr ∧ t.ar = s.ar ∧ t.cfg = s.cfg ∧ t.host = s.host ∧ t.seen = s.seen ∧
    t.turns = s.turns ∧
    (s.opr ≠ 4#3 ∨ s.ph ≠ .data → t.buf = s.buf) ∧
    (∀ k, k ≠ s.ix.toNat → Memory.read t.buf k = Memory.read s.buf k) ∧
    (s.opr ≠ 7#3 ∨ s.ph ≠ .hdr → t.h = s.h) ∧
    (s.opr ≠ 7#3 ∨ s.ph ≠ .size → t.acc = s.acc) ∧
    (s.opr ≠ 1#3 ∨ s.ph ≠ .data → t.sr = s.sr) ∧
    (s.opr ≠ 3#3 ∨ (s.ph ≠ .deselect ∧ s.ph ≠ .wake) → t.wcnt = s.wcnt) ∧
    (s.opr ≠ 5#3 ∨ s.ph ≠ .data → t.draws = s.draws) ∧
    ((s.ph ≠ .deselect ∧ s.ph ≠ .wake) ∨ (s.busy = true ∧ t.busy = true) →
      t.busy = s.busy ∧ t.resCode = s.resCode ∧ t.resVal = s.resVal ∧ t.resValid = s.resValid) ∧
    (s.ph ≠ .select → s.ph ≠ .deselect → t.cs = s.cs) ∧
    (t.flt = s.flt ∨ (t.flt = true ∧ t.ph = .deselect ∧ t.ix = 0))

/-- R36, R25, R85: every single step of the framer keeps the invariant, also the steps inside an
operation. -/
def Obligations.FramerStepKeepsInvariant : Prop :=
  ∀ s t : State, s.busy = true → s.Inv → framerStep s = .moved t → t.Inv

/-! ### Acceptance and which agent moves (spec/10_state.md R15, R36) -/

/-- R15: acceptance is enabled iff BUSY = 0; it latches OPR and AR, sets BUSY, clears RES_VALID, FLT and
ACC and puts the sequencer at (SELECT, 0), and touches nothing else. Alone it is one step of the machine
where the next turn is 0; otherwise the framer's turn follows in the same step (log entries 4 and 18).
While BUSY = 1 the word stays with the host (log entry 5), and the meaning by itself answers the same state
(log entry 12). -/
def Obligations.AcceptanceLatchesCommand : Prop :=
  (∀ (s : State) (w : CmdWord) (rest : List HostStep), s.busy = false → s.host = .issue w :: rest →
    (∀ ts, s.turns = 0 :: ts →
      step s = .next
        { s with host := rest, opr := w.extractLsb' 32 3, ar := w.extractLsb' 0 32, busy := true,
                 resValid := false, flt := false, acc := 0, ph := .select, ix := 0, turns := ts }) ∧
    step s = runTurn framerStep
      { s with host := rest, opr := w.extractLsb' 32 3, ar := w.extractLsb' 0 32, busy := true,
               resValid := false, flt := false, acc := 0, ph := .select, ix := 0 }) ∧
  (∀ (s t : State) (w : CmdWord) (rest : List HostStep), s.busy = true → s.host = .issue w :: rest →
    step s = .next t → t.host = s.host ∧ t.opr = s.opr ∧ t.ar = s.ar) ∧
  ∀ (i : Instr) (s : State), s.busy = true → exec i s = .next s

/-- A step runs the decoded instruction: the host's offered word, taken off its list. -/
def Obligations.StepRunsDecodedCommand : Prop :=
  ∀ (s : State) (w : CmdWord) (rest : List HostStep), s.busy = false → s.host = .issue w :: rest →
    step s = exec (decode w) { s with host := rest }

/-- The model's own placing of a command (log entry 13): the next step runs exactly it. -/
def Obligations.PlacedCommandRuns : Prop :=
  ∀ (s : State) (nbits w : Nat) (i : Instr), decodeTableWord nbits w = some i →
    step (s.withFetchWord nbits w) = exec i { s with busy := false, ph := .idle, cs := false }

/-- R36 and R84 with log entries 2, 4, 5 and 18: while BUSY = 1 and the framer's step is enabled, the next
entry of `turns` says whose turn it is: with no entry the framer takes its steps up to the completion or a
wait, with `k + 1` at most so many, and with 0 the host may read the result registers or reset. Where the
framer waits, the host may do so without an entry, and otherwise nothing changes. -/
def Obligations.BusyStepIsTheFramers : Prop :=
  ∀ s : State, s.busy = true →
    (∀ t, framerStep s = .moved t →
      (s.turns = [] → step s = runRows framerStep maxFramerSteps s) ∧
      (∀ k ts, s.turns = (k + 1) :: ts →
        step s = runRows framerStep (k + 1) { s with turns := ts }) ∧
      (∀ ts, s.turns = 0 :: ts →
        (∀ rest, s.host = .readResult :: rest →
          step s = .next (hostReadResult { s with host := rest, turns := ts })) ∧
        (∀ rest, s.host = .reset :: rest →
          step s = .next (resetFramer { s with host := rest, turns := ts })) ∧
        ((∀ rest, s.host ≠ .readResult :: rest) → (∀ rest, s.host ≠ .reset :: rest) →
          step s = .next { s with turns := ts }))) ∧
    (framerStep s = .waiting →
      (∀ rest, s.host = .readResult :: rest → step s = .next (hostReadResult { s with host := rest })) ∧
      (∀ rest, s.host = .reset :: rest → step s = .next (resetFramer { s with host := rest })) ∧
      ((∀ rest, s.host ≠ .readResult :: rest) → (∀ rest, s.host ≠ .reset :: rest) → step s = .next s))

/-- R84: with turns of one step (log entry 18) a step of the machine is one step of the framer, the one
primitive named by (PH, IX), with its one wire event. -/
def Obligations.SingleFramerStep : Prop :=
  ∀ (s t : State) (ts : List Nat), s.busy = true → framerStep s = .moved t → s.turns = 1 :: ts →
    step s = .next { t with turns := ts } ∧ ∃ e, t.wire = s.wire ++ [e]

/-- R84, R87 (log entries 4 and 18): how the turns cut an operation changes nothing of what it does. A turn
that gives the operation at least the steps it takes does not show, and two turns with nothing of the host
between them are one. -/
def Obligations.TurnsOnlyCut : Prop :=
  (∀ (i : Instr) (s t : State) (k : Nat) (ts : List Nat), s.busy = false →
    exec i { s with turns := [] } = .next t → t.wire.length ≤ s.wire.length + k →
    exec i { s with turns := k :: ts } = .next { t with turns := ts }) ∧
  ∀ (i : Instr) (s t : State) (m n : Nat) (ts : List Nat), s.busy = false →
    exec i { s with turns := m :: (n + 1) :: ts } = .next t → t.busy = true → framerStep t ≠ .waiting →
    step t = exec i { s with turns := (m + n + 1) :: ts }

/-! ### What each operation does when the transport answers every exchange

Here and below `s.turns = []` says that no turn ends the step before the operation does; with other turns
`TurnsOnlyCut` and `WaitingIsTransparent` lead back to this case. -/

/-- R88: ISSUE_CMD sends its byte alone in a window and returns 0 (IX = 0 after it is log entry 14). -/
def Obligations.IssueCmdCompletes : Prop :=
  ∀ (ign : BitVec 24) (opb r : Byte) (rest : List Answer) (s : State),
    s.busy = false → s.turns = [] → s.answers = .ok r :: rest →
    exec (.issueCmd ign opb) s =
      .next (finished (.issueCmd ign opb) 0 0 [.csA, .x opb r, .csD] rest s)

/-- R90: READ_STATUS returns the byte of its second exchange, zero-extended (IX = 0 after it is log entry
14). -/
def Obligations.ReadStatusCompletes : Prop :=
  ∀ (ign : Word) (r v : Byte) (rest : List Answer) (s : State),
    s.busy = false → s.turns = [] → s.answers = .ok r :: .ok v :: rest →
    exec (.readStatus ign) s =
      .next { finished (.readStatus ign) 0 (v.zeroExtend 32)
                [.csA, .x s.cfg.opRdsr r, .x s.cfg.dummyByte v, .csD] rest s with sr := v }

/-- R92: ENTER_UDPD sends OP_UDPD alone in a window and returns 0 (IX = 0 after it is log entry 14). -/
def Obligations.EnterUdpdCompletes : Prop :=
  ∀ (ign : Word) (r : Byte) (rest : List Answer) (s : State),
    s.busy = false → s.turns = [] → s.answers = .ok r :: rest →
    exec (.enterUdpd ign) s =
      .next (finished (.enterUdpd ign) 0 0 [.csA, .x s.cfg.opUdpd r, .csD] rest s)

/-- R93, R94: EXIT_SLEEP sends OP_RDP alone in a window and spins after the deselect; WCNT ends at 0
(R29; log entry 10 for the value after the spin, log entry 14 for IX = 0). -/
def Obligations.ExitSleepCompletes : Prop :=
  ∀ (ign : Word) (r : Byte) (rest : List Answer) (s : State),
    s.busy = false → s.turns = [] → s.answers = .ok r :: rest →
    exec (.exitSleep ign) s =
      .next { finished (.exitSleep ign) 0 0
                [.csA, .x s.cfg.opRdp r, .csD, .spin s.cfg.wakeSpinCount] rest s with wcnt := 0 }

/-- R100, R101: READ_PAGE makes 260 exchanges and leaves in BUF exactly the bytes of the last 256, in
order; nothing else changes (IX = 0 after it is log entry 14). -/
def Obligations.ReadPageCompletes : Prop :=
  ∀ (ign : Byte) (addr : FlashAddr) (r0 r1 r2 r3 : Byte) (data : List Byte) (rest : List Answer)
    (s : State),
    s.busy = false → s.turns = [] → data.length = 256 →
    s.answers = okAnswers (r0 :: r1 :: r2 :: r3 :: data) ++ rest →
    ∃ t, exec (.readPage ign addr) s = .next t ∧
      (∀ k, k < 256 → Memory.read t.buf k = data[k]?) ∧
      (∀ k, 256 ≤ k → Memory.read t.buf k = Memory.read s.buf k) ∧
      t = { finished (.readPage ign addr) 0 0
              ([.csA] ++ exchangeEvents
                  (s.cfg.opRead :: frameAddress addr ++ List.replicate 256 s.cfg.dummyByte)
                  (r0 :: r1 :: r2 :: r3 :: data) ++ [.csD]) rest s with buf := t.buf }

/-- R102: WRITE_PAGE sends the opcode, the address and the 256 bytes of BUF in order, a draw for each
byte nothing has written (R35; log entry 8), and leaves BUF as it is (IX = 0 after it is log entry 14). -/
def Obligations.WritePageCompletes : Prop :=
  ∀ (ign : Byte) (addr : FlashAddr) (rs : List Byte) (rest : List Answer) (s : State),
    s.busy = false → s.turns = [] → rs.length = 260 → s.answers = okAnswers rs ++ rest →
    exec (.writePage ign addr) s =
      .next { finished (.writePage ign addr) 0 0
                ([.csA] ++ exchangeEvents (s.cfg.opPp :: frameAddress addr ++ payload s) rs ++ [.csD])
                rest s with draws := s.draws + unwritten s.buf 256 0 }

/-- R104: ERASE_PAGE sends the opcode and the three address bytes and no payload (IX = 0 after it is log
entry 14). -/
def Obligations.ErasePageCompletes : Prop :=
  ∀ (ign : Byte) (addr : FlashAddr) (r0 r1 r2 r3 : Byte) (rest : List Answer) (s : State),
    s.busy = false → s.turns = [] → s.answers = .ok r0 :: .ok r1 :: .ok r2 :: .ok r3 :: rest →
    exec (.erasePage ign addr) s =
      .next (finished (.erasePage ign addr) 0 0
        [.csA, .x s.cfg.opPe r0, .x (addr.extractLsb' 16 8) r1, .x (addr.extractLsb' 8 8) r2,
         .x (addr.extractLsb' 0 8) r3, .csD] rest s)

/-- R115 to R122: DISCOVER_SIZE keeps the eleventh header byte in H, skips 8H + 4 bytes after the
alignment byte, assembles the four size bytes little-endian, adds 1 modulo 2^32 and returns the sum
shifted right by 13, in 21 + 8H exchanges (IX = 0 after it is log entry 14). -/
def Obligations.DiscoverSizeCompletes : Prop :=
  ∀ (ign : Word) (r0 h al b0 b1 b2 b3 : Byte) (hdr skip : List Byte) (rest : List Answer) (s : State),
    s.busy = false → s.turns = [] → hdr.length = 10 → skip.length = 8 * h.toNat + 4 →
    s.answers = okAnswers (r0 :: hdr ++ h :: al :: skip ++ [b0, b1, b2, b3]) ++ rest →
    exec (.discoverSize ign) s =
      .next { finished (.discoverSize ign) 0 (((b3 ++ b2 ++ b1 ++ b0 : BitVec 32) + 1) >>> 13)
                ([.csA] ++ exchangeEvents
                    (s.cfg.opSfdp :: List.replicate (20 + 8 * h.toNat) s.cfg.dummyByte)
                    (r0 :: hdr ++ h :: al :: skip ++ [b0, b1, b2, b3]) ++ [.csD]) rest s with
              h := h, acc := (b3 ++ b2 ++ b1 ++ b0 : BitVec 32) + 1 }

/-! ### The wire (spec/30_encoding.md R63, R67; spec/40_framing.md R80 to R82) -/

/-- R63, R67, R82: with every exchange answered, an operation completes with code 0 and puts on the wire
one select window with exactly its frame, and after the window the spin of EXIT_SLEEP. -/
def Obligations.OperationPutsFrameOnWire : Prop :=
  ∀ (i : Instr) (s : State) (rs : List Byte) (rest : List Answer),
    s.busy = false → s.turns = [] → rs.length = exchanges i rs → s.answers = okAnswers rs ++ rest →
    (frameBytes i s rs).length = exchanges i rs ∧
    ∃ t, exec i s = .next t ∧ t.busy = false ∧ t.resValid = true ∧ t.resCode = 0 ∧ t.flt = false ∧
      t.answers = rest ∧
      t.wire = s.wire ++ [.csA] ++ exchangeEvents (frameBytes i s rs) rs ++ [.csD] ++ afterWindow i s

/-- R81: for every operation, with or without a fault, the wire gains one `CsA` before every exchange
and one `CsD` after every exchange, and CS = 0 when it completes. -/
def Obligations.OneWindowPerOperation : Prop :=
  ∀ (i : Instr) (s t : State), s.busy = false → exec i s = .next t → t.busy = false →
    t.cs = false ∧
    ∃ body tail, t.wire = s.wire ++ [.csA] ++ body ++ [.csD] ++ tail ∧
      (∀ e ∈ body, (∃ tx rx, e = .x tx rx) ∨ ∃ tx, e = .xf tx) ∧ (∀ e ∈ tail, ∃ n, e = .spin n)

/-- R87 with R36: an operation offered to an idle framer takes at most 2063 framer steps, one wire event
each; it has then completed, idle and deselected, or it waits for the transport with BUSY = 1 and CS = 1,
or it stands, with BUSY = 1, after exactly the steps of its turn (log entry 18). -/
def Obligations.ExecCompletesOrWaits : Prop :=
  ∀ (i : Instr) (s : State), s.busy = false →
    ∃ t, exec i s = .next t ∧ t.wire.length ≤ s.wire.length + 2063 ∧
      ((t.busy = false ∧ t.ph = .idle ∧ t.cs = false ∧ t.resValid = true) ∨
       (t.busy = true ∧ t.cs = true ∧ t.resValid = false ∧ framerStep t = .waiting) ∨
       (t.busy = true ∧ t.resValid = false ∧
         ∃ k ts, s.turns = k :: ts ∧ t.wire.length = s.wire.length + k))

/-! ### The exception (spec/60_exceptions.md R130 to R139) -/

/-- R131: at every exchange position the answer `Fault` logs `XF(tx)`, writes no destination register,
sets FLT and goes to (DESELECT, 0); the next step is the deselect with `Complete(1, 0)` and no spin.
The draw of an unwritten payload byte is counted (log entry 8), and IX stays 0 in IDLE (log entry 14). -/
def Obligations.TransportFaultEntry : Prop :=
  ∀ (s : State) (d : Nat) (tx : Byte) (put : Byte → State → State) (rest : List Answer),
    XferRow s d tx put → s.cs = true → s.cfg.tCanFault = true → s.answers = .fault :: rest →
    framerStep s = .moved { s with wire := s.wire ++ [.xf tx], answers := rest, draws := s.draws + d,
                                   flt := true, ph := .deselect, ix := 0 } ∧
    framerStep { s with wire := s.wire ++ [.xf tx], answers := rest, draws := s.draws + d,
                        flt := true, ph := .deselect, ix := 0 } =
      .moved { s with wire := s.wire ++ [.xf tx, .csD], answers := rest, draws := s.draws + d,
                      flt := true, ph := .idle, ix := 0, cs := false, resValid := true, resCode := 1,
                      resVal := 0, busy := false }

/-- R132, R137: a fault at any exchange of any operation ends it there: the exchanges before it are on
the wire, then `XF` with the byte of that exchange, then the deselect, and nothing after; the operation
completes with TRANSPORT_FAULT and value 0, deselected and idle. -/
def Obligations.FaultEndsOperation : Prop :=
  ∀ (i : Instr) (s : State) (rs : List Byte) (rest : List Answer),
    s.busy = false → s.turns = [] → s.cfg.tCanFault = true → rs.length < exchanges i rs →
    s.answers = okAnswers rs ++ .fault :: rest →
    ∃ t tx, exec i s = .next t ∧ (frameBytes i s rs)[rs.length]? = some tx ∧
      t.wire = s.wire ++ [.csA] ++ exchangeEvents (frameBytes i s rs) rs ++ [.xf tx, .csD] ∧
      t.answers = rest ∧ t.busy = false ∧ t.cs = false ∧ t.ph = .idle ∧ t.flt = true ∧
      t.resValid = true ∧ t.resCode = 1 ∧ t.resVal = 0

/-- R106: after a fault at data exchange k of READ_PAGE the first k bytes of BUF are the bytes received
and the others are as before; after a fault at the opcode or an address exchange BUF is unchanged. -/
def Obligations.FaultedReadKeepsTail : Prop :=
  ∀ (ign : Byte) (addr : FlashAddr) (s : State) (rs : List Byte) (rest : List Answer),
    s.busy = false → s.turns = [] → s.cfg.tCanFault = true → rs.length < 260 →
    s.answers = okAnswers rs ++ .fault :: rest →
    ∃ t, exec (.readPage ign addr) s = .next t ∧ t.busy = false ∧ t.resCode = 1 ∧
      (∀ k, k + 4 < rs.length → Memory.read t.buf k = rs[k + 4]?) ∧
      (∀ k, rs.length ≤ k + 4 → Memory.read t.buf k = Memory.read s.buf k)

/-- R130: with T_CAN_FAULT false the exception is never raised and the code is always 0. -/
def Obligations.NoFaultWithoutTCanFault : Prop :=
  ∀ (i : Instr) (s t : State), s.busy = false → s.cfg.tCanFault = false → exec i s = .next t →
    t.flt = false ∧ (t.busy = false → t.resCode = 0) ∧
    ∃ ev, t.wire = s.wire ++ ev ∧ ∀ tx, WireEvent.xf tx ∉ ev

/-- R21: RES_CODE is written only at completion; it is 0 when every exchange was answered `Ok` and 1
when one was answered `Fault`, and never 2 or 3. -/
def Obligations.CompletionCode : Prop :=
  ∀ (i : Instr) (s t : State), s.busy = false → exec i s = .next t →
    (t.busy = true → t.resCode = s.resCode) ∧
    (t.busy = false → ∃ ev, t.wire = s.wire ++ ev ∧
      ((t.resCode = 0 ∧ ∀ tx, WireEvent.xf tx ∉ ev) ∨
       (t.resCode = 1 ∧ ∃ pre tx, ev = pre ++ [.xf tx, .csD] ∧ ∀ tx', WireEvent.xf tx' ∉ pre)))

/-- R22: RES_VAL is written only at completion; it is the status byte for READ_STATUS and the shifted
accumulator for DISCOVER_SIZE, each with code OK, and 0 for every other operation and after a fault. -/
def Obligations.ReturnedValue : Prop :=
  ∀ (i : Instr) (s t : State), s.busy = false → exec i s = .next t →
    (t.busy = true → t.resVal = s.resVal) ∧
    (t.busy = false →
      (t.resCode = 0 → i.sel = 1#3 → t.resVal = t.sr.zeroExtend 32) ∧
      (t.resCode = 0 → i.sel = 7#3 → t.resVal = t.acc >>> 13 ∧ t.resVal.toNat < 2 ^ 19) ∧
      (i.sel ≠ 1#3 → i.sel ≠ 7#3 → t.resVal = 0) ∧
      (t.resCode = 1 → t.resVal = 0))

/-- R139: a framer at an exchange the transport does not answer has CS = 1 and stays there for ever with
BUSY = 1, whatever the host does short of a reset; only what the host has read can change. -/
def Obligations.UnansweredExchangeHangs : Prop :=
  ∀ s : State, s.busy = true → framerStep s = .waiting → HostStep.reset ∉ s.host →
    s.cs = true ∧ ∀ n : Nat, ∃ host seen draws,
      Host.Core.run Sys2Proof.core n s =
        .next { s with host := host, seen := s.seen ++ seen, draws := draws }

/-- R83, R84 (in the form of log entries 2, 4 and 18): waiting and being cut by a turn change nothing: an
operation that waits or was cut, and is then given more answers, or none, and goes on, ends as if all the
answers had been there from its acceptance and no turn had cut it. Where it still waits, the host must have
no step that could take the turn. -/
def Obligations.WaitingIsTransparent : Prop :=
  ∀ (i : Instr) (s t : State) (more : List Answer),
    s.busy = false → exec i s = .next t → t.busy = true → t.turns = [] →
    (s.host = [] ∨ framerStep { t with answers := t.answers ++ more } ≠ .waiting) →
    step { t with answers := t.answers ++ more } =
      exec i { s with answers := s.answers ++ more, turns := [] }

/-! ### Reset and the invariant (spec/10_state.md R25, R34, R36) -/

/-- R34: what reset leaves; no byte of BUF has a value, and the framer waits in IDLE. -/
def Obligations.ResetState : Prop :=
  State.reset.busy = false ∧ State.reset.ph = .idle ∧ State.reset.cs = false ∧
  State.reset.resValid = false ∧ State.reset.flt = false ∧ State.reset.wire = [] ∧
  (∀ k, Memory.read State.reset.buf k = none) ∧ step State.reset = .next State.reset

/-- The invariant holds after reset. -/
def Obligations.ResetInvariant : Prop := State.reset.Inv

/-- Every step of the machine keeps the invariant: canonical page buffer, BUSY = 0 exactly in IDLE, CS
as the phase says and so 0 whenever BUSY = 0, a listed sequencer position, RES_VALID and the result
registers as the spec couples them, and a wire history of whole select windows open exactly while
CS = 1. -/
def Obligations.StepKeepsInvariant : Prop :=
  ∀ s t : State, s.Inv → step s = .next t → t.Inv

/-- From a state with the invariant a step always answers a next state: no unlisted position is ever
stepped from (R85), and no command is refused (R68). -/
def Obligations.InvariantStepAnswers : Prop := ∀ s : State, s.Inv → ∃ t, step s = .next t

/-! ### Frames -/

/-- What each operation leaves unchanged, whether it completes, faults, waits or is cut by a turn: the
parameters, the host's list and its record always, and the turns but for the one taken (log entry 18); SR but for READ_STATUS, H but for DISCOVER_SIZE, WCNT but for
EXIT_SLEEP, the count of draws but for WRITE_PAGE; ACC is 0 but for DISCOVER_SIZE (R15); OPR and AR are
the command's (R16); the wire history only grows and the transport's answers are only consumed. -/
def Obligations.OperationFrame : Prop :=
  ∀ (i : Instr) (s t : State), s.busy = false → exec i s = .next t →
    t.cfg = s.cfg ∧ t.host = s.host ∧ t.seen = s.seen ∧ t.opr = i.sel ∧ t.ar = i.arg ∧
    t.turns = s.turns.tail ∧
    (i.sel ≠ 1#3 → t.sr = s.sr) ∧ (i.sel ≠ 7#3 → t.h = s.h) ∧ (i.sel ≠ 7#3 → t.acc = 0) ∧
    (i.sel ≠ 3#3 → t.wcnt = s.wcnt) ∧ (i.sel ≠ 5#3 → t.draws = s.draws) ∧
    (∃ ev, t.wire = s.wire ++ ev) ∧ (∃ used, s.answers = used ++ t.answers)

/-- BUF: only READ_PAGE writes it (R19), one byte for each data exchange answered, from index 0 up; all
other bytes, and for every other operation all bytes, read as before. -/
def Obligations.BufferFrame : Prop :=
  ∀ (i : Instr) (s t : State), s.busy = false → exec i s = .next t →
    (i.sel ≠ 4#3 → ∀ k, Memory.read t.buf k = Memory.read s.buf k) ∧
    (i.sel = 4#3 → ∃ used, s.answers = used ++ t.answers ∧
      ∀ k, (256 ≤ k ∨ used.length ≤ k + 4) → Memory.read t.buf k = Memory.read s.buf k)

/-! ### Isolation -/

/-- R31: what an operation puts on the wire, consumes, returns and leaves of the sequencer is a function
of its command, the parameters, the transport's answers and, for WRITE_PAGE, of BUF; nothing an earlier
operation left matters. Where WRITE_PAGE meets a byte nothing has written, its draws are compared from the
same count (log entry 8); the turns that cut the operations are the same (log entry 18); the equality of
IX in IDLE is log entry 14. -/
def Obligations.OperationIgnoresThePast : Prop :=
  ∀ (i : Instr) (s₁ s₂ t₁ t₂ : State), s₁.busy = false → s₂.busy = false → s₁.cfg = s₂.cfg →
    s₁.answers = s₂.answers → s₁.turns = s₂.turns →
    (i.sel = 5#3 → (∀ k, k < 256 → Memory.read s₁.buf k = Memory.read s₂.buf k) ∧
      (s₁.draws = s₂.draws ∨ ∀ k, k < 256 → (Memory.read s₁.buf k).isSome = true)) →
    exec i s₁ = .next t₁ → exec i s₂ = .next t₂ →
    (∃ ev, t₁.wire = s₁.wire ++ ev ∧ t₂.wire = s₂.wire ++ ev) ∧
    t₁.busy = t₂.busy ∧ t₁.ph = t₂.ph ∧ t₁.ix = t₂.ix ∧
    (s₁.turns.head? ≠ some 0 → t₁.cs = t₂.cs) ∧
    t₁.flt = t₂.flt ∧ t₁.acc = t₂.acc ∧ t₁.resValid = t₂.resValid ∧ t₁.answers = t₂.answers ∧
    (t₁.busy = false → t₁.resCode = t₂.resCode ∧ t₁.resVal = t₂.resVal) ∧
    (i.sel = 4#3 → t₁.busy = false → t₁.resCode = 0 →
      ∀ k, k < 256 → Memory.read t₁.buf k = Memory.read t₂.buf k)

/-- R62: two commands that differ only in ignored bits have the same effect on everything but AR, which
holds the bits and whose ignored bits nothing reads (R16; log entry 15). -/
def Obligations.IgnoredBitsDoNothing : Prop :=
  ∀ (i j : Instr) (s : State), s.busy = false →
    ((∃ g g' o, i = .issueCmd g o ∧ j = .issueCmd g' o) ∨
      (∃ g g', i = .readStatus g ∧ j = .readStatus g') ∨
      (∃ g g', i = .enterUdpd g ∧ j = .enterUdpd g') ∨
      (∃ g g', i = .exitSleep g ∧ j = .exitSleep g') ∨
      (∃ g g' a, i = .readPage g a ∧ j = .readPage g' a) ∨
      (∃ g g' a, i = .writePage g a ∧ j = .writePage g' a) ∨
      (∃ g g' a, i = .erasePage g a ∧ j = .erasePage g' a) ∨
      (∃ g g', i = .discoverSize g ∧ j = .discoverSize g')) →
    ∃ t, exec i s = .next t ∧ exec j s = .next { t with ar := j.arg }

/-- R88: ENTER_UDPD equals ISSUE_CMD with OPB = OP_UDPD in every effect; the latched command itself
(OPR and AR) is all that differs. -/
def Obligations.EnterUdpdIsIssueCmd : Prop :=
  ∀ (ign : Word) (g : BitVec 24) (s : State), s.busy = false →
    ∃ t, exec (.enterUdpd ign) s = .next t ∧
      exec (.issueCmd g s.cfg.opUdpd) s = .next { t with opr := 0#3, ar := g ++ s.cfg.opUdpd }

/-- R93: a completed EXIT_SLEEP differs from ISSUE_CMD OP_RDP only by the spin, which is there exactly
when no fault occurred (R131), and by WCNT. -/
def Obligations.ExitSleepIsIssueCmdAndSpin : Prop :=
  ∀ (ign : Word) (g : BitVec 24) (s t : State), s.busy = false →
    exec (.exitSleep ign) s = .next t → t.busy = false →
    exec (.issueCmd g s.cfg.opRdp) s =
        .next { t with opr := 0#3, ar := g ++ s.cfg.opRdp, wcnt := s.wcnt,
                       wire := if t.flt then t.wire else t.wire.dropLast } ∧
      (t.flt = false → t.wire.getLast? = some (.spin s.cfg.wakeSpinCount)) ∧
      (t.flt = true → t.wire.getLast? = some .csD)

/-! ### The host's port (spec/10_state.md R20, R23, R35; spec/70_reset_and_hazards.md R150, R151) -/

/-- R20: `hostRead(i)` returns BUF[i] and `hostWrite(i, v)` writes it, both enabled iff BUSY = 0. -/
def Obligations.HostBufferAccess : Prop :=
  (∀ (s : State) (i : Byte) (rest : List HostStep), s.busy = false → s.host = .hostRead i :: rest →
    ∃ v draws, step s = .next { s with host := rest, seen := s.seen ++ [.bufByte i v], draws := draws } ∧
      ∀ w, Memory.read s.buf i.toNat = some w → v = w ∧ draws = s.draws) ∧
  (∀ (s : State) (i v : Byte) (rest : List HostStep), s.busy = false → s.host = .hostWrite i v :: rest →
    ∃ t, step s = .next t ∧ (∀ k, Memory.read t.buf k = if k = i.toNat then some v else Memory.read s.buf k) ∧
      t = { s with host := rest, buf := t.buf }) ∧
  ∀ (s t : State) (i v : Byte) (rest : List HostStep), s.busy = true →
    (s.host = .hostRead i :: rest ∨ s.host = .hostWrite i v :: rest) → step s = .next t →
    t.host = s.host ∧ t.seen = s.seen ∧ (s.opr ≠ 4#3 → t.buf = s.buf)

/-- R35: a host read of a BUF byte nothing has written is a draw, a fresh one each time. -/
def Obligations.UnwrittenReadIsADraw : Prop :=
  ∀ (s : State) (i : Byte) (rest : List HostStep), s.busy = false → s.host = .hostRead i :: rest →
    Memory.read s.buf i.toNat = none →
    step s = .next { s with host := rest, seen := s.seen ++ [.bufByte i (Config.freeByte s.draws)],
                            draws := s.draws + 1 }

/-- R23, R35: where the host acts (`State.hostActsIn`, log entry 18), it reads RES_CODE and RES_VAL as they
are while RES_VALID = 1, and draws otherwise (log entry 8); BUSY and RES_VALID it always reads as they
are, also in the middle of an operation. -/
def Obligations.HostReadsResult : Prop :=
  ∀ (s u : State) (rest : List HostStep), s.hostActsIn u → s.host = .readResult :: rest →
    (s.resValid = true →
      step s = .next { u with host := rest, seen := s.seen ++ [.result s.busy true s.resCode s.resVal] }) ∧
    (s.resValid = false →
      step s = .next { u with host := rest, draws := s.draws + 1,
                              seen := s.seen ++ [.result s.busy false (Config.freeCode s.draws)
                                (Config.freeWord s.draws)] })

/-- R150, R151 (what it keeps is the model's choice: log entry 9): a reset, also one that abandons an
operation at any of its steps, where the host acts (`State.hostActsIn`, log entry 18), leaves BUSY, CS,
RES_VALID and FLT 0, PH at IDLE, an empty wire history and no byte of BUF with a value; the parameters and
the environment stay, the transport's remaining answers among it. -/
def Obligations.ResetStep : Prop :=
  ∀ (s u : State) (rest : List HostStep), s.hostActsIn u → s.host = .reset :: rest →
    ∃ t, step s = .next t ∧ t.busy = false ∧ t.cs = false ∧ t.resValid = false ∧ t.flt = false ∧
      t.ph = .idle ∧ t.wire = [] ∧ (∀ k, Memory.read t.buf k = none) ∧
      t.cfg = s.cfg ∧ t.answers = s.answers ∧ t.host = rest ∧ t.seen = s.seen ∧ t.draws = s.draws ∧
      t.turns = u.turns

/-- R34: with no step of the host left the idle framer waits and sends nothing. -/
def Obligations.IdleFramerWaits : Prop :=
  ∀ s : State, s.busy = false → s.host = [] → step s = .next s

/-! ### Round trip (spec/42_page_ops.md R108) -/

/-- R108: if a READ_PAGE is answered in its data exchanges with the bytes a WRITE_PAGE at the same
address has sent, both send the same address bytes and BUF, all written, is left unchanged. -/
def Obligations.PageRoundTrip : Prop :=
  ∀ (g g' : Byte) (addr : FlashAddr) (rs head : List Byte) (rest : List Answer) (s : State),
    s.busy = false → s.turns = [] → Memory.wf s.buf = true → (∀ k, k < 256 → (Memory.read s.buf k).isSome = true) →
    rs.length = 260 → head.length = 4 →
    s.answers = okAnswers rs ++ okAnswers (head ++ payload s) ++ rest →
    ∃ t u, exec (.writePage g addr) s = .next t ∧ exec (.readPage g' addr) t = .next u ∧
      t.resCode = 0 ∧ u.resCode = 0 ∧ u.answers = rest ∧ u.buf = s.buf ∧
      t.wire = s.wire ++ [.csA] ++
        exchangeEvents (s.cfg.opPp :: frameAddress addr ++ payload s) rs ++ [.csD] ∧
      u.wire = t.wire ++ [.csA] ++
        exchangeEvents (s.cfg.opRead :: frameAddress addr ++ List.replicate 256 s.cfg.dummyByte)
          (head ++ payload s) ++ [.csD]
end

