-- ==== Sys2Proof/Laws/State.lean ====
section
/-!
SUPPORT. What each update of the state does to each field, once, so that no later proof unfolds a record
update.
-/

namespace Sys2Proof.Machine

/-! ### `bufWrite` -/

@[simp] theorem bufWrite_busy (i : Nat) (v : Byte) (s : State) : (bufWrite i v s).busy = s.busy := rfl
@[simp] theorem bufWrite_opr (i : Nat) (v : Byte) (s : State) : (bufWrite i v s).opr = s.opr := rfl
@[simp] theorem bufWrite_ar (i : Nat) (v : Byte) (s : State) : (bufWrite i v s).ar = s.ar := rfl
@[simp] theorem bufWrite_ph (i : Nat) (v : Byte) (s : State) : (bufWrite i v s).ph = s.ph := rfl
@[simp] theorem bufWrite_ix (i : Nat) (v : Byte) (s : State) : (bufWrite i v s).ix = s.ix := rfl
@[simp] theorem bufWrite_buf (i : Nat) (v : Byte) (s : State) : (bufWrite i v s).buf = Memory.write s.buf i v := rfl
@[simp] theorem bufWrite_resValid (i : Nat) (v : Byte) (s : State) : (bufWrite i v s).resValid = s.resValid := rfl
@[simp] theorem bufWrite_resCode (i : Nat) (v : Byte) (s : State) : (bufWrite i v s).resCode = s.resCode := rfl
@[simp] theorem bufWrite_resVal (i : Nat) (v : Byte) (s : State) : (bufWrite i v s).resVal = s.resVal := rfl
@[simp] theorem bufWrite_flt (i : Nat) (v : Byte) (s : State) : (bufWrite i v s).flt = s.flt := rfl
@[simp] theorem bufWrite_cs (i : Nat) (v : Byte) (s : State) : (bufWrite i v s).cs = s.cs := rfl
@[simp] theorem bufWrite_h (i : Nat) (v : Byte) (s : State) : (bufWrite i v s).h = s.h := rfl
@[simp] theorem bufWrite_acc (i : Nat) (v : Byte) (s : State) : (bufWrite i v s).acc = s.acc := rfl
@[simp] theorem bufWrite_sr (i : Nat) (v : Byte) (s : State) : (bufWrite i v s).sr = s.sr := rfl
@[simp] theorem bufWrite_wcnt (i : Nat) (v : Byte) (s : State) : (bufWrite i v s).wcnt = s.wcnt := rfl
@[simp] theorem bufWrite_wire (i : Nat) (v : Byte) (s : State) : (bufWrite i v s).wire = s.wire := rfl
@[simp] theorem bufWrite_cfg (i : Nat) (v : Byte) (s : State) : (bufWrite i v s).cfg = s.cfg := rfl
@[simp] theorem bufWrite_answers (i : Nat) (v : Byte) (s : State) : (bufWrite i v s).answers = s.answers := rfl
@[simp] theorem bufWrite_host (i : Nat) (v : Byte) (s : State) : (bufWrite i v s).host = s.host := rfl
@[simp] theorem bufWrite_seen (i : Nat) (v : Byte) (s : State) : (bufWrite i v s).seen = s.seen := rfl
@[simp] theorem bufWrite_draws (i : Nat) (v : Byte) (s : State) : (bufWrite i v s).draws = s.draws := rfl
@[simp] theorem bufWrite_turns (i : Nat) (v : Byte) (s : State) : (bufWrite i v s).turns = s.turns := rfl

/-! ### `logEvent` -/

@[simp] theorem logEvent_busy (e : WireEvent) (s : State) : (logEvent e s).busy = s.busy := rfl
@[simp] theorem logEvent_opr (e : WireEvent) (s : State) : (logEvent e s).opr = s.opr := rfl
@[simp] theorem logEvent_ar (e : WireEvent) (s : State) : (logEvent e s).ar = s.ar := rfl
@[simp] theorem logEvent_ph (e : WireEvent) (s : State) : (logEvent e s).ph = s.ph := rfl
@[simp] theorem logEvent_ix (e : WireEvent) (s : State) : (logEvent e s).ix = s.ix := rfl
@[simp] theorem logEvent_buf (e : WireEvent) (s : State) : (logEvent e s).buf = s.buf := rfl
@[simp] theorem logEvent_resValid (e : WireEvent) (s : State) : (logEvent e s).resValid = s.resValid := rfl
@[simp] theorem logEvent_resCode (e : WireEvent) (s : State) : (logEvent e s).resCode = s.resCode := rfl
@[simp] theorem logEvent_resVal (e : WireEvent) (s : State) : (logEvent e s).resVal = s.resVal := rfl
@[simp] theorem logEvent_flt (e : WireEvent) (s : State) : (logEvent e s).flt = s.flt := rfl
@[simp] theorem logEvent_cs (e : WireEvent) (s : State) : (logEvent e s).cs = s.cs := rfl
@[simp] theorem logEvent_h (e : WireEvent) (s : State) : (logEvent e s).h = s.h := rfl
@[simp] theorem logEvent_acc (e : WireEvent) (s : State) : (logEvent e s).acc = s.acc := rfl
@[simp] theorem logEvent_sr (e : WireEvent) (s : State) : (logEvent e s).sr = s.sr := rfl
@[simp] theorem logEvent_wcnt (e : WireEvent) (s : State) : (logEvent e s).wcnt = s.wcnt := rfl
@[simp] theorem logEvent_wire (e : WireEvent) (s : State) : (logEvent e s).wire = s.wire ++ [e] := rfl
@[simp] theorem logEvent_cfg (e : WireEvent) (s : State) : (logEvent e s).cfg = s.cfg := rfl
@[simp] theorem logEvent_answers (e : WireEvent) (s : State) : (logEvent e s).answers = s.answers := rfl
@[simp] theorem logEvent_host (e : WireEvent) (s : State) : (logEvent e s).host = s.host := rfl
@[simp] theorem logEvent_seen (e : WireEvent) (s : State) : (logEvent e s).seen = s.seen := rfl
@[simp] theorem logEvent_draws (e : WireEvent) (s : State) : (logEvent e s).draws = s.draws := rfl
@[simp] theorem logEvent_turns (e : WireEvent) (s : State) : (logEvent e s).turns = s.turns := rfl

/-! ### `goto` -/

@[simp] theorem goto_busy (p : Phase) (k : Index) (s : State) : (goto p k s).busy = s.busy := rfl
@[simp] theorem goto_opr (p : Phase) (k : Index) (s : State) : (goto p k s).opr = s.opr := rfl
@[simp] theorem goto_ar (p : Phase) (k : Index) (s : State) : (goto p k s).ar = s.ar := rfl
@[simp] theorem goto_ph (p : Phase) (k : Index) (s : State) : (goto p k s).ph = p := rfl
@[simp] theorem goto_ix (p : Phase) (k : Index) (s : State) : (goto p k s).ix = k := rfl
@[simp] theorem goto_buf (p : Phase) (k : Index) (s : State) : (goto p k s).buf = s.buf := rfl
@[simp] theorem goto_resValid (p : Phase) (k : Index) (s : State) : (goto p k s).resValid = s.resValid := rfl
@[simp] theorem goto_resCode (p : Phase) (k : Index) (s : State) : (goto p k s).resCode = s.resCode := rfl
@[simp] theorem goto_resVal (p : Phase) (k : Index) (s : State) : (goto p k s).resVal = s.resVal := rfl
@[simp] theorem goto_flt (p : Phase) (k : Index) (s : State) : (goto p k s).flt = s.flt := rfl
@[simp] theorem goto_cs (p : Phase) (k : Index) (s : State) : (goto p k s).cs = s.cs := rfl
@[simp] theorem goto_h (p : Phase) (k : Index) (s : State) : (goto p k s).h = s.h := rfl
@[simp] theorem goto_acc (p : Phase) (k : Index) (s : State) : (goto p k s).acc = s.acc := rfl
@[simp] theorem goto_sr (p : Phase) (k : Index) (s : State) : (goto p k s).sr = s.sr := rfl
@[simp] theorem goto_wcnt (p : Phase) (k : Index) (s : State) : (goto p k s).wcnt = s.wcnt := rfl
@[simp] theorem goto_wire (p : Phase) (k : Index) (s : State) : (goto p k s).wire = s.wire := rfl
@[simp] theorem goto_cfg (p : Phase) (k : Index) (s : State) : (goto p k s).cfg = s.cfg := rfl
@[simp] theorem goto_answers (p : Phase) (k : Index) (s : State) : (goto p k s).answers = s.answers := rfl
@[simp] theorem goto_host (p : Phase) (k : Index) (s : State) : (goto p k s).host = s.host := rfl
@[simp] theorem goto_seen (p : Phase) (k : Index) (s : State) : (goto p k s).seen = s.seen := rfl
@[simp] theorem goto_draws (p : Phase) (k : Index) (s : State) : (goto p k s).draws = s.draws := rfl
@[simp] theorem goto_turns (p : Phase) (k : Index) (s : State) : (goto p k s).turns = s.turns := rfl

/-! ### `csAssert` -/

@[simp] theorem csAssert_busy (s : State) : (csAssert s).busy = s.busy := rfl
@[simp] theorem csAssert_opr (s : State) : (csAssert s).opr = s.opr := rfl
@[simp] theorem csAssert_ar (s : State) : (csAssert s).ar = s.ar := rfl
@[simp] theorem csAssert_ph (s : State) : (csAssert s).ph = s.ph := rfl
@[simp] theorem csAssert_ix (s : State) : (csAssert s).ix = s.ix := rfl
@[simp] theorem csAssert_buf (s : State) : (csAssert s).buf = s.buf := rfl
@[simp] theorem csAssert_resValid (s : State) : (csAssert s).resValid = s.resValid := rfl
@[simp] theorem csAssert_resCode (s : State) : (csAssert s).resCode = s.resCode := rfl
@[simp] theorem csAssert_resVal (s : State) : (csAssert s).resVal = s.resVal := rfl
@[simp] theorem csAssert_flt (s : State) : (csAssert s).flt = s.flt := rfl
@[simp] theorem csAssert_cs (s : State) : (csAssert s).cs = true := rfl
@[simp] theorem csAssert_h (s : State) : (csAssert s).h = s.h := rfl
@[simp] theorem csAssert_acc (s : State) : (csAssert s).acc = s.acc := rfl
@[simp] theorem csAssert_sr (s : State) : (csAssert s).sr = s.sr := rfl
@[simp] theorem csAssert_wcnt (s : State) : (csAssert s).wcnt = s.wcnt := rfl
@[simp] theorem csAssert_wire (s : State) : (csAssert s).wire = s.wire ++ [.csA] := rfl
@[simp] theorem csAssert_cfg (s : State) : (csAssert s).cfg = s.cfg := rfl
@[simp] theorem csAssert_answers (s : State) : (csAssert s).answers = s.answers := rfl
@[simp] theorem csAssert_host (s : State) : (csAssert s).host = s.host := rfl
@[simp] theorem csAssert_seen (s : State) : (csAssert s).seen = s.seen := rfl
@[simp] theorem csAssert_draws (s : State) : (csAssert s).draws = s.draws := rfl
@[simp] theorem csAssert_turns (s : State) : (csAssert s).turns = s.turns := rfl

/-! ### `csDeassert` -/

@[simp] theorem csDeassert_busy (s : State) : (csDeassert s).busy = s.busy := rfl
@[simp] theorem csDeassert_opr (s : State) : (csDeassert s).opr = s.opr := rfl
@[simp] theorem csDeassert_ar (s : State) : (csDeassert s).ar = s.ar := rfl
@[simp] theorem csDeassert_ph (s : State) : (csDeassert s).ph = s.ph := rfl
@[simp] theorem csDeassert_ix (s : State) : (csDeassert s).ix = s.ix := rfl
@[simp] theorem csDeassert_buf (s : State) : (csDeassert s).buf = s.buf := rfl
@[simp] theorem csDeassert_resValid (s : State) : (csDeassert s).resValid = s.resValid := rfl
@[simp] theorem csDeassert_resCode (s : State) : (csDeassert s).resCode = s.resCode := rfl
@[simp] theorem csDeassert_resVal (s : State) : (csDeassert s).resVal = s.resVal := rfl
@[simp] theorem csDeassert_flt (s : State) : (csDeassert s).flt = s.flt := rfl
@[simp] theorem csDeassert_cs (s : State) : (csDeassert s).cs = false := rfl
@[simp] theorem csDeassert_h (s : State) : (csDeassert s).h = s.h := rfl
@[simp] theorem csDeassert_acc (s : State) : (csDeassert s).acc = s.acc := rfl
@[simp] theorem csDeassert_sr (s : State) : (csDeassert s).sr = s.sr := rfl
@[simp] theorem csDeassert_wcnt (s : State) : (csDeassert s).wcnt = s.wcnt := rfl
@[simp] theorem csDeassert_wire (s : State) : (csDeassert s).wire = s.wire ++ [.csD] := rfl
@[simp] theorem csDeassert_cfg (s : State) : (csDeassert s).cfg = s.cfg := rfl
@[simp] theorem csDeassert_answers (s : State) : (csDeassert s).answers = s.answers := rfl
@[simp] theorem csDeassert_host (s : State) : (csDeassert s).host = s.host := rfl
@[simp] theorem csDeassert_seen (s : State) : (csDeassert s).seen = s.seen := rfl
@[simp] theorem csDeassert_draws (s : State) : (csDeassert s).draws = s.draws := rfl
@[simp] theorem csDeassert_turns (s : State) : (csDeassert s).turns = s.turns := rfl

/-! ### `spinWake` -/

@[simp] theorem spinWake_busy (s : State) : (spinWake s).busy = s.busy := rfl
@[simp] theorem spinWake_opr (s : State) : (spinWake s).opr = s.opr := rfl
@[simp] theorem spinWake_ar (s : State) : (spinWake s).ar = s.ar := rfl
@[simp] theorem spinWake_ph (s : State) : (spinWake s).ph = s.ph := rfl
@[simp] theorem spinWake_ix (s : State) : (spinWake s).ix = s.ix := rfl
@[simp] theorem spinWake_buf (s : State) : (spinWake s).buf = s.buf := rfl
@[simp] theorem spinWake_resValid (s : State) : (spinWake s).resValid = s.resValid := rfl
@[simp] theorem spinWake_resCode (s : State) : (spinWake s).resCode = s.resCode := rfl
@[simp] theorem spinWake_resVal (s : State) : (spinWake s).resVal = s.resVal := rfl
@[simp] theorem spinWake_flt (s : State) : (spinWake s).flt = s.flt := rfl
@[simp] theorem spinWake_cs (s : State) : (spinWake s).cs = s.cs := rfl
@[simp] theorem spinWake_h (s : State) : (spinWake s).h = s.h := rfl
@[simp] theorem spinWake_acc (s : State) : (spinWake s).acc = s.acc := rfl
@[simp] theorem spinWake_sr (s : State) : (spinWake s).sr = s.sr := rfl
@[simp] theorem spinWake_wcnt (s : State) : (spinWake s).wcnt = 0 := rfl
@[simp] theorem spinWake_wire (s : State) : (spinWake s).wire = s.wire ++ [.spin s.cfg.wakeSpinCount] := rfl
@[simp] theorem spinWake_cfg (s : State) : (spinWake s).cfg = s.cfg := rfl
@[simp] theorem spinWake_answers (s : State) : (spinWake s).answers = s.answers := rfl
@[simp] theorem spinWake_host (s : State) : (spinWake s).host = s.host := rfl
@[simp] theorem spinWake_seen (s : State) : (spinWake s).seen = s.seen := rfl
@[simp] theorem spinWake_draws (s : State) : (spinWake s).draws = s.draws := rfl
@[simp] theorem spinWake_turns (s : State) : (spinWake s).turns = s.turns := rfl

/-! ### `complete` -/

@[simp] theorem complete_busy (c : BitVec 2) (v : Word) (s : State) : (complete c v s).busy = false := rfl
@[simp] theorem complete_opr (c : BitVec 2) (v : Word) (s : State) : (complete c v s).opr = s.opr := rfl
@[simp] theorem complete_ar (c : BitVec 2) (v : Word) (s : State) : (complete c v s).ar = s.ar := rfl
@[simp] theorem complete_ph (c : BitVec 2) (v : Word) (s : State) : (complete c v s).ph = .idle := rfl
@[simp] theorem complete_ix (c : BitVec 2) (v : Word) (s : State) : (complete c v s).ix = s.ix := rfl
@[simp] theorem complete_buf (c : BitVec 2) (v : Word) (s : State) : (complete c v s).buf = s.buf := rfl
@[simp] theorem complete_resValid (c : BitVec 2) (v : Word) (s : State) : (complete c v s).resValid = true := rfl
@[simp] theorem complete_resCode (c : BitVec 2) (v : Word) (s : State) : (complete c v s).resCode = c := rfl
@[simp] theorem complete_resVal (c : BitVec 2) (v : Word) (s : State) : (complete c v s).resVal = v := rfl
@[simp] theorem complete_flt (c : BitVec 2) (v : Word) (s : State) : (complete c v s).flt = s.flt := rfl
@[simp] theorem complete_cs (c : BitVec 2) (v : Word) (s : State) : (complete c v s).cs = s.cs := rfl
@[simp] theorem complete_h (c : BitVec 2) (v : Word) (s : State) : (complete c v s).h = s.h := rfl
@[simp] theorem complete_acc (c : BitVec 2) (v : Word) (s : State) : (complete c v s).acc = s.acc := rfl
@[simp] theorem complete_sr (c : BitVec 2) (v : Word) (s : State) : (complete c v s).sr = s.sr := rfl
@[simp] theorem complete_wcnt (c : BitVec 2) (v : Word) (s : State) : (complete c v s).wcnt = s.wcnt := rfl
@[simp] theorem complete_wire (c : BitVec 2) (v : Word) (s : State) : (complete c v s).wire = s.wire := rfl
@[simp] theorem complete_cfg (c : BitVec 2) (v : Word) (s : State) : (complete c v s).cfg = s.cfg := rfl
@[simp] theorem complete_answers (c : BitVec 2) (v : Word) (s : State) : (complete c v s).answers = s.answers := rfl
@[simp] theorem complete_host (c : BitVec 2) (v : Word) (s : State) : (complete c v s).host = s.host := rfl
@[simp] theorem complete_seen (c : BitVec 2) (v : Word) (s : State) : (complete c v s).seen = s.seen := rfl
@[simp] theorem complete_draws (c : BitVec 2) (v : Word) (s : State) : (complete c v s).draws = s.draws := rfl
@[simp] theorem complete_turns (c : BitVec 2) (v : Word) (s : State) : (complete c v s).turns = s.turns := rfl

/-! ### `faultEntry` -/

@[simp] theorem faultEntry_busy (tx : Byte) (s : State) : (faultEntry tx s).busy = s.busy := rfl
@[simp] theorem faultEntry_opr (tx : Byte) (s : State) : (faultEntry tx s).opr = s.opr := rfl
@[simp] theorem faultEntry_ar (tx : Byte) (s : State) : (faultEntry tx s).ar = s.ar := rfl
@[simp] theorem faultEntry_ph (tx : Byte) (s : State) : (faultEntry tx s).ph = .deselect := rfl
@[simp] theorem faultEntry_ix (tx : Byte) (s : State) : (faultEntry tx s).ix = 0 := rfl
@[simp] theorem faultEntry_buf (tx : Byte) (s : State) : (faultEntry tx s).buf = s.buf := rfl
@[simp] theorem faultEntry_resValid (tx : Byte) (s : State) : (faultEntry tx s).resValid = s.resValid := rfl
@[simp] theorem faultEntry_resCode (tx : Byte) (s : State) : (faultEntry tx s).resCode = s.resCode := rfl
@[simp] theorem faultEntry_resVal (tx : Byte) (s : State) : (faultEntry tx s).resVal = s.resVal := rfl
@[simp] theorem faultEntry_flt (tx : Byte) (s : State) : (faultEntry tx s).flt = true := rfl
@[simp] theorem faultEntry_cs (tx : Byte) (s : State) : (faultEntry tx s).cs = s.cs := rfl
@[simp] theorem faultEntry_h (tx : Byte) (s : State) : (faultEntry tx s).h = s.h := rfl
@[simp] theorem faultEntry_acc (tx : Byte) (s : State) : (faultEntry tx s).acc = s.acc := rfl
@[simp] theorem faultEntry_sr (tx : Byte) (s : State) : (faultEntry tx s).sr = s.sr := rfl
@[simp] theorem faultEntry_wcnt (tx : Byte) (s : State) : (faultEntry tx s).wcnt = s.wcnt := rfl
@[simp] theorem faultEntry_wire (tx : Byte) (s : State) : (faultEntry tx s).wire = s.wire ++ [.xf tx] := rfl
@[simp] theorem faultEntry_cfg (tx : Byte) (s : State) : (faultEntry tx s).cfg = s.cfg := rfl
@[simp] theorem faultEntry_answers (tx : Byte) (s : State) : (faultEntry tx s).answers = s.answers := rfl
@[simp] theorem faultEntry_host (tx : Byte) (s : State) : (faultEntry tx s).host = s.host := rfl
@[simp] theorem faultEntry_seen (tx : Byte) (s : State) : (faultEntry tx s).seen = s.seen := rfl
@[simp] theorem faultEntry_draws (tx : Byte) (s : State) : (faultEntry tx s).draws = s.draws := rfl
@[simp] theorem faultEntry_turns (tx : Byte) (s : State) : (faultEntry tx s).turns = s.turns := rfl

/-! ### `accept` -/

@[simp] theorem accept_busy (sel : Selector) (a : Word) (s : State) : (accept sel a s).busy = true := rfl
@[simp] theorem accept_opr (sel : Selector) (a : Word) (s : State) : (accept sel a s).opr = sel := rfl
@[simp] theorem accept_ar (sel : Selector) (a : Word) (s : State) : (accept sel a s).ar = a := rfl
@[simp] theorem accept_ph (sel : Selector) (a : Word) (s : State) : (accept sel a s).ph = .select := rfl
@[simp] theorem accept_ix (sel : Selector) (a : Word) (s : State) : (accept sel a s).ix = 0 := rfl
@[simp] theorem accept_buf (sel : Selector) (a : Word) (s : State) : (accept sel a s).buf = s.buf := rfl
@[simp] theorem accept_resValid (sel : Selector) (a : Word) (s : State) : (accept sel a s).resValid = false := rfl
@[simp] theorem accept_resCode (sel : Selector) (a : Word) (s : State) : (accept sel a s).resCode = s.resCode := rfl
@[simp] theorem accept_resVal (sel : Selector) (a : Word) (s : State) : (accept sel a s).resVal = s.resVal := rfl
@[simp] theorem accept_flt (sel : Selector) (a : Word) (s : State) : (accept sel a s).flt = false := rfl
@[simp] theorem accept_cs (sel : Selector) (a : Word) (s : State) : (accept sel a s).cs = s.cs := rfl
@[simp] theorem accept_h (sel : Selector) (a : Word) (s : State) : (accept sel a s).h = s.h := rfl
@[simp] theorem accept_acc (sel : Selector) (a : Word) (s : State) : (accept sel a s).acc = 0 := rfl
@[simp] theorem accept_sr (sel : Selector) (a : Word) (s : State) : (accept sel a s).sr = s.sr := rfl
@[simp] theorem accept_wcnt (sel : Selector) (a : Word) (s : State) : (accept sel a s).wcnt = s.wcnt := rfl
@[simp] theorem accept_wire (sel : Selector) (a : Word) (s : State) : (accept sel a s).wire = s.wire := rfl
@[simp] theorem accept_cfg (sel : Selector) (a : Word) (s : State) : (accept sel a s).cfg = s.cfg := rfl
@[simp] theorem accept_answers (sel : Selector) (a : Word) (s : State) : (accept sel a s).answers = s.answers := rfl
@[simp] theorem accept_host (sel : Selector) (a : Word) (s : State) : (accept sel a s).host = s.host := rfl
@[simp] theorem accept_seen (sel : Selector) (a : Word) (s : State) : (accept sel a s).seen = s.seen := rfl
@[simp] theorem accept_draws (sel : Selector) (a : Word) (s : State) : (accept sel a s).draws = s.draws := rfl
@[simp] theorem accept_turns (sel : Selector) (a : Word) (s : State) : (accept sel a s).turns = s.turns := rfl

/-! ### `putStatus` -/

@[simp] theorem putStatus_busy (rx : Byte) (s : State) : (putStatus rx s).busy = s.busy := rfl
@[simp] theorem putStatus_opr (rx : Byte) (s : State) : (putStatus rx s).opr = s.opr := rfl
@[simp] theorem putStatus_ar (rx : Byte) (s : State) : (putStatus rx s).ar = s.ar := rfl
@[simp] theorem putStatus_ph (rx : Byte) (s : State) : (putStatus rx s).ph = s.ph := rfl
@[simp] theorem putStatus_ix (rx : Byte) (s : State) : (putStatus rx s).ix = s.ix := rfl
@[simp] theorem putStatus_buf (rx : Byte) (s : State) : (putStatus rx s).buf = s.buf := rfl
@[simp] theorem putStatus_resValid (rx : Byte) (s : State) : (putStatus rx s).resValid = s.resValid := rfl
@[simp] theorem putStatus_resCode (rx : Byte) (s : State) : (putStatus rx s).resCode = s.resCode := rfl
@[simp] theorem putStatus_resVal (rx : Byte) (s : State) : (putStatus rx s).resVal = s.resVal := rfl
@[simp] theorem putStatus_flt (rx : Byte) (s : State) : (putStatus rx s).flt = s.flt := rfl
@[simp] theorem putStatus_cs (rx : Byte) (s : State) : (putStatus rx s).cs = s.cs := rfl
@[simp] theorem putStatus_h (rx : Byte) (s : State) : (putStatus rx s).h = s.h := rfl
@[simp] theorem putStatus_acc (rx : Byte) (s : State) : (putStatus rx s).acc = s.acc := rfl
@[simp] theorem putStatus_sr (rx : Byte) (s : State) : (putStatus rx s).sr = rx := rfl
@[simp] theorem putStatus_wcnt (rx : Byte) (s : State) : (putStatus rx s).wcnt = s.wcnt := rfl
@[simp] theorem putStatus_wire (rx : Byte) (s : State) : (putStatus rx s).wire = s.wire := rfl
@[simp] theorem putStatus_cfg (rx : Byte) (s : State) : (putStatus rx s).cfg = s.cfg := rfl
@[simp] theorem putStatus_answers (rx : Byte) (s : State) : (putStatus rx s).answers = s.answers := rfl
@[simp] theorem putStatus_host (rx : Byte) (s : State) : (putStatus rx s).host = s.host := rfl
@[simp] theorem putStatus_seen (rx : Byte) (s : State) : (putStatus rx s).seen = s.seen := rfl
@[simp] theorem putStatus_draws (rx : Byte) (s : State) : (putStatus rx s).draws = s.draws := rfl
@[simp] theorem putStatus_turns (rx : Byte) (s : State) : (putStatus rx s).turns = s.turns := rfl

/-! ### `startWake` -/

@[simp] theorem startWake_busy (s : State) : (startWake s).busy = s.busy := rfl
@[simp] theorem startWake_opr (s : State) : (startWake s).opr = s.opr := rfl
@[simp] theorem startWake_ar (s : State) : (startWake s).ar = s.ar := rfl
@[simp] theorem startWake_ph (s : State) : (startWake s).ph = .wake := rfl
@[simp] theorem startWake_ix (s : State) : (startWake s).ix = 0 := rfl
@[simp] theorem startWake_buf (s : State) : (startWake s).buf = s.buf := rfl
@[simp] theorem startWake_resValid (s : State) : (startWake s).resValid = s.resValid := rfl
@[simp] theorem startWake_resCode (s : State) : (startWake s).resCode = s.resCode := rfl
@[simp] theorem startWake_resVal (s : State) : (startWake s).resVal = s.resVal := rfl
@[simp] theorem startWake_flt (s : State) : (startWake s).flt = s.flt := rfl
@[simp] theorem startWake_cs (s : State) : (startWake s).cs = s.cs := rfl
@[simp] theorem startWake_h (s : State) : (startWake s).h = s.h := rfl
@[simp] theorem startWake_acc (s : State) : (startWake s).acc = s.acc := rfl
@[simp] theorem startWake_sr (s : State) : (startWake s).sr = s.sr := rfl
@[simp] theorem startWake_wcnt (s : State) : (startWake s).wcnt = s.cfg.wakeSpinCount := rfl
@[simp] theorem startWake_wire (s : State) : (startWake s).wire = s.wire := rfl
@[simp] theorem startWake_cfg (s : State) : (startWake s).cfg = s.cfg := rfl
@[simp] theorem startWake_answers (s : State) : (startWake s).answers = s.answers := rfl
@[simp] theorem startWake_host (s : State) : (startWake s).host = s.host := rfl
@[simp] theorem startWake_seen (s : State) : (startWake s).seen = s.seen := rfl
@[simp] theorem startWake_draws (s : State) : (startWake s).draws = s.draws := rfl
@[simp] theorem startWake_turns (s : State) : (startWake s).turns = s.turns := rfl

/-! ### `putPageByte` -/

@[simp] theorem putPageByte_busy (k : Index) (rx : Byte) (s : State) : (putPageByte k rx s).busy = s.busy := rfl
@[simp] theorem putPageByte_opr (k : Index) (rx : Byte) (s : State) : (putPageByte k rx s).opr = s.opr := rfl
@[simp] theorem putPageByte_ar (k : Index) (rx : Byte) (s : State) : (putPageByte k rx s).ar = s.ar := rfl
@[simp] theorem putPageByte_ph (k : Index) (rx : Byte) (s : State) : (putPageByte k rx s).ph = s.ph := rfl
@[simp] theorem putPageByte_ix (k : Index) (rx : Byte) (s : State) : (putPageByte k rx s).ix = s.ix := rfl
@[simp] theorem putPageByte_buf (k : Index) (rx : Byte) (s : State) : (putPageByte k rx s).buf = Memory.write s.buf k.toNat rx := rfl
@[simp] theorem putPageByte_resValid (k : Index) (rx : Byte) (s : State) : (putPageByte k rx s).resValid = s.resValid := rfl
@[simp] theorem putPageByte_resCode (k : Index) (rx : Byte) (s : State) : (putPageByte k rx s).resCode = s.resCode := rfl
@[simp] theorem putPageByte_resVal (k : Index) (rx : Byte) (s : State) : (putPageByte k rx s).resVal = s.resVal := rfl
@[simp] theorem putPageByte_flt (k : Index) (rx : Byte) (s : State) : (putPageByte k rx s).flt = s.flt := rfl
@[simp] theorem putPageByte_cs (k : Index) (rx : Byte) (s : State) : (putPageByte k rx s).cs = s.cs := rfl
@[simp] theorem putPageByte_h (k : Index) (rx : Byte) (s : State) : (putPageByte k rx s).h = s.h := rfl
@[simp] theorem putPageByte_acc (k : Index) (rx : Byte) (s : State) : (putPageByte k rx s).acc = s.acc := rfl
@[simp] theorem putPageByte_sr (k : Index) (rx : Byte) (s : State) : (putPageByte k rx s).sr = s.sr := rfl
@[simp] theorem putPageByte_wcnt (k : Index) (rx : Byte) (s : State) : (putPageByte k rx s).wcnt = s.wcnt := rfl
@[simp] theorem putPageByte_wire (k : Index) (rx : Byte) (s : State) : (putPageByte k rx s).wire = s.wire := rfl
@[simp] theorem putPageByte_cfg (k : Index) (rx : Byte) (s : State) : (putPageByte k rx s).cfg = s.cfg := rfl
@[simp] theorem putPageByte_answers (k : Index) (rx : Byte) (s : State) : (putPageByte k rx s).answers = s.answers := rfl
@[simp] theorem putPageByte_host (k : Index) (rx : Byte) (s : State) : (putPageByte k rx s).host = s.host := rfl
@[simp] theorem putPageByte_seen (k : Index) (rx : Byte) (s : State) : (putPageByte k rx s).seen = s.seen := rfl
@[simp] theorem putPageByte_draws (k : Index) (rx : Byte) (s : State) : (putPageByte k rx s).draws = s.draws := rfl
@[simp] theorem putPageByte_turns (k : Index) (rx : Byte) (s : State) : (putPageByte k rx s).turns = s.turns := rfl

/-! ### `putHeader` -/

@[simp] theorem putHeader_busy (k : Index) (rx : Byte) (s : State) : (putHeader k rx s).busy = s.busy := rfl
@[simp] theorem putHeader_opr (k : Index) (rx : Byte) (s : State) : (putHeader k rx s).opr = s.opr := rfl
@[simp] theorem putHeader_ar (k : Index) (rx : Byte) (s : State) : (putHeader k rx s).ar = s.ar := rfl
@[simp] theorem putHeader_ph (k : Index) (rx : Byte) (s : State) : (putHeader k rx s).ph = s.ph := rfl
@[simp] theorem putHeader_ix (k : Index) (rx : Byte) (s : State) : (putHeader k rx s).ix = s.ix := rfl
@[simp] theorem putHeader_buf (k : Index) (rx : Byte) (s : State) : (putHeader k rx s).buf = s.buf := rfl
@[simp] theorem putHeader_resValid (k : Index) (rx : Byte) (s : State) : (putHeader k rx s).resValid = s.resValid := rfl
@[simp] theorem putHeader_resCode (k : Index) (rx : Byte) (s : State) : (putHeader k rx s).resCode = s.resCode := rfl
@[simp] theorem putHeader_resVal (k : Index) (rx : Byte) (s : State) : (putHeader k rx s).resVal = s.resVal := rfl
@[simp] theorem putHeader_flt (k : Index) (rx : Byte) (s : State) : (putHeader k rx s).flt = s.flt := rfl
@[simp] theorem putHeader_cs (k : Index) (rx : Byte) (s : State) : (putHeader k rx s).cs = s.cs := rfl
@[simp] theorem putHeader_h (k : Index) (rx : Byte) (s : State) : (putHeader k rx s).h = rx := rfl
@[simp] theorem putHeader_acc (k : Index) (rx : Byte) (s : State) : (putHeader k rx s).acc = s.acc := rfl
@[simp] theorem putHeader_sr (k : Index) (rx : Byte) (s : State) : (putHeader k rx s).sr = s.sr := rfl
@[simp] theorem putHeader_wcnt (k : Index) (rx : Byte) (s : State) : (putHeader k rx s).wcnt = s.wcnt := rfl
@[simp] theorem putHeader_wire (k : Index) (rx : Byte) (s : State) : (putHeader k rx s).wire = s.wire := rfl
@[simp] theorem putHeader_cfg (k : Index) (rx : Byte) (s : State) : (putHeader k rx s).cfg = s.cfg := rfl
@[simp] theorem putHeader_answers (k : Index) (rx : Byte) (s : State) : (putHeader k rx s).answers = s.answers := rfl
@[simp] theorem putHeader_host (k : Index) (rx : Byte) (s : State) : (putHeader k rx s).host = s.host := rfl
@[simp] theorem putHeader_seen (k : Index) (rx : Byte) (s : State) : (putHeader k rx s).seen = s.seen := rfl
@[simp] theorem putHeader_draws (k : Index) (rx : Byte) (s : State) : (putHeader k rx s).draws = s.draws := rfl
@[simp] theorem putHeader_turns (k : Index) (rx : Byte) (s : State) : (putHeader k rx s).turns = s.turns := rfl

/-! ### `putSizeByte` -/

@[simp] theorem putSizeByte_busy (k : Index) (rx : Byte) (s : State) : (putSizeByte k rx s).busy = s.busy := rfl
@[simp] theorem putSizeByte_opr (k : Index) (rx : Byte) (s : State) : (putSizeByte k rx s).opr = s.opr := rfl
@[simp] theorem putSizeByte_ar (k : Index) (rx : Byte) (s : State) : (putSizeByte k rx s).ar = s.ar := rfl
@[simp] theorem putSizeByte_ph (k : Index) (rx : Byte) (s : State) : (putSizeByte k rx s).ph = s.ph := rfl
@[simp] theorem putSizeByte_ix (k : Index) (rx : Byte) (s : State) : (putSizeByte k rx s).ix = s.ix := rfl
@[simp] theorem putSizeByte_buf (k : Index) (rx : Byte) (s : State) : (putSizeByte k rx s).buf = s.buf := rfl
@[simp] theorem putSizeByte_resValid (k : Index) (rx : Byte) (s : State) : (putSizeByte k rx s).resValid = s.resValid := rfl
@[simp] theorem putSizeByte_resCode (k : Index) (rx : Byte) (s : State) : (putSizeByte k rx s).resCode = s.resCode := rfl
@[simp] theorem putSizeByte_resVal (k : Index) (rx : Byte) (s : State) : (putSizeByte k rx s).resVal = s.resVal := rfl
@[simp] theorem putSizeByte_flt (k : Index) (rx : Byte) (s : State) : (putSizeByte k rx s).flt = s.flt := rfl
@[simp] theorem putSizeByte_cs (k : Index) (rx : Byte) (s : State) : (putSizeByte k rx s).cs = s.cs := rfl
@[simp] theorem putSizeByte_h (k : Index) (rx : Byte) (s : State) : (putSizeByte k rx s).h = s.h := rfl
@[simp] theorem putSizeByte_acc (k : Index) (rx : Byte) (s : State) : (putSizeByte k rx s).acc = accStep s.acc rx := rfl
@[simp] theorem putSizeByte_sr (k : Index) (rx : Byte) (s : State) : (putSizeByte k rx s).sr = s.sr := rfl
@[simp] theorem putSizeByte_wcnt (k : Index) (rx : Byte) (s : State) : (putSizeByte k rx s).wcnt = s.wcnt := rfl
@[simp] theorem putSizeByte_wire (k : Index) (rx : Byte) (s : State) : (putSizeByte k rx s).wire = s.wire := rfl
@[simp] theorem putSizeByte_cfg (k : Index) (rx : Byte) (s : State) : (putSizeByte k rx s).cfg = s.cfg := rfl
@[simp] theorem putSizeByte_answers (k : Index) (rx : Byte) (s : State) : (putSizeByte k rx s).answers = s.answers := rfl
@[simp] theorem putSizeByte_host (k : Index) (rx : Byte) (s : State) : (putSizeByte k rx s).host = s.host := rfl
@[simp] theorem putSizeByte_seen (k : Index) (rx : Byte) (s : State) : (putSizeByte k rx s).seen = s.seen := rfl
@[simp] theorem putSizeByte_draws (k : Index) (rx : Byte) (s : State) : (putSizeByte k rx s).draws = s.draws := rfl
@[simp] theorem putSizeByte_turns (k : Index) (rx : Byte) (s : State) : (putSizeByte k rx s).turns = s.turns := rfl

/-! ### `incSize` -/

@[simp] theorem incSize_busy (s : State) : (incSize s).busy = s.busy := rfl
@[simp] theorem incSize_opr (s : State) : (incSize s).opr = s.opr := rfl
@[simp] theorem incSize_ar (s : State) : (incSize s).ar = s.ar := rfl
@[simp] theorem incSize_ph (s : State) : (incSize s).ph = s.ph := rfl
@[simp] theorem incSize_ix (s : State) : (incSize s).ix = s.ix := rfl
@[simp] theorem incSize_buf (s : State) : (incSize s).buf = s.buf := rfl
@[simp] theorem incSize_resValid (s : State) : (incSize s).resValid = s.resValid := rfl
@[simp] theorem incSize_resCode (s : State) : (incSize s).resCode = s.resCode := rfl
@[simp] theorem incSize_resVal (s : State) : (incSize s).resVal = s.resVal := rfl
@[simp] theorem incSize_flt (s : State) : (incSize s).flt = s.flt := rfl
@[simp] theorem incSize_cs (s : State) : (incSize s).cs = s.cs := rfl
@[simp] theorem incSize_h (s : State) : (incSize s).h = s.h := rfl
@[simp] theorem incSize_acc (s : State) : (incSize s).acc = accInc s.acc := rfl
@[simp] theorem incSize_sr (s : State) : (incSize s).sr = s.sr := rfl
@[simp] theorem incSize_wcnt (s : State) : (incSize s).wcnt = s.wcnt := rfl
@[simp] theorem incSize_wire (s : State) : (incSize s).wire = s.wire := rfl
@[simp] theorem incSize_cfg (s : State) : (incSize s).cfg = s.cfg := rfl
@[simp] theorem incSize_answers (s : State) : (incSize s).answers = s.answers := rfl
@[simp] theorem incSize_host (s : State) : (incSize s).host = s.host := rfl
@[simp] theorem incSize_seen (s : State) : (incSize s).seen = s.seen := rfl
@[simp] theorem incSize_draws (s : State) : (incSize s).draws = s.draws := rfl
@[simp] theorem incSize_turns (s : State) : (incSize s).turns = s.turns := rfl

/-! ### `popHost` -/

@[simp] theorem popHost_busy (s : State) : (popHost s).busy = s.busy := rfl
@[simp] theorem popHost_opr (s : State) : (popHost s).opr = s.opr := rfl
@[simp] theorem popHost_ar (s : State) : (popHost s).ar = s.ar := rfl
@[simp] theorem popHost_ph (s : State) : (popHost s).ph = s.ph := rfl
@[simp] theorem popHost_ix (s : State) : (popHost s).ix = s.ix := rfl
@[simp] theorem popHost_buf (s : State) : (popHost s).buf = s.buf := rfl
@[simp] theorem popHost_resValid (s : State) : (popHost s).resValid = s.resValid := rfl
@[simp] theorem popHost_resCode (s : State) : (popHost s).resCode = s.resCode := rfl
@[simp] theorem popHost_resVal (s : State) : (popHost s).resVal = s.resVal := rfl
@[simp] theorem popHost_flt (s : State) : (popHost s).flt = s.flt := rfl
@[simp] theorem popHost_cs (s : State) : (popHost s).cs = s.cs := rfl
@[simp] theorem popHost_h (s : State) : (popHost s).h = s.h := rfl
@[simp] theorem popHost_acc (s : State) : (popHost s).acc = s.acc := rfl
@[simp] theorem popHost_sr (s : State) : (popHost s).sr = s.sr := rfl
@[simp] theorem popHost_wcnt (s : State) : (popHost s).wcnt = s.wcnt := rfl
@[simp] theorem popHost_wire (s : State) : (popHost s).wire = s.wire := rfl
@[simp] theorem popHost_cfg (s : State) : (popHost s).cfg = s.cfg := rfl
@[simp] theorem popHost_answers (s : State) : (popHost s).answers = s.answers := rfl
@[simp] theorem popHost_host (s : State) : (popHost s).host = s.host.tail := rfl
@[simp] theorem popHost_seen (s : State) : (popHost s).seen = s.seen := rfl
@[simp] theorem popHost_draws (s : State) : (popHost s).draws = s.draws := rfl
@[simp] theorem popHost_turns (s : State) : (popHost s).turns = s.turns := rfl

/-! ### `returnToHost` -/

@[simp] theorem returnToHost_busy (v : HostValue) (s : State) : (returnToHost v s).busy = s.busy := rfl
@[simp] theorem returnToHost_opr (v : HostValue) (s : State) : (returnToHost v s).opr = s.opr := rfl
@[simp] theorem returnToHost_ar (v : HostValue) (s : State) : (returnToHost v s).ar = s.ar := rfl
@[simp] theorem returnToHost_ph (v : HostValue) (s : State) : (returnToHost v s).ph = s.ph := rfl
@[simp] theorem returnToHost_ix (v : HostValue) (s : State) : (returnToHost v s).ix = s.ix := rfl
@[simp] theorem returnToHost_buf (v : HostValue) (s : State) : (returnToHost v s).buf = s.buf := rfl
@[simp] theorem returnToHost_resValid (v : HostValue) (s : State) : (returnToHost v s).resValid = s.resValid := rfl
@[simp] theorem returnToHost_resCode (v : HostValue) (s : State) : (returnToHost v s).resCode = s.resCode := rfl
@[simp] theorem returnToHost_resVal (v : HostValue) (s : State) : (returnToHost v s).resVal = s.resVal := rfl
@[simp] theorem returnToHost_flt (v : HostValue) (s : State) : (returnToHost v s).flt = s.flt := rfl
@[simp] theorem returnToHost_cs (v : HostValue) (s : State) : (returnToHost v s).cs = s.cs := rfl
@[simp] theorem returnToHost_h (v : HostValue) (s : State) : (returnToHost v s).h = s.h := rfl
@[simp] theorem returnToHost_acc (v : HostValue) (s : State) : (returnToHost v s).acc = s.acc := rfl
@[simp] theorem returnToHost_sr (v : HostValue) (s : State) : (returnToHost v s).sr = s.sr := rfl
@[simp] theorem returnToHost_wcnt (v : HostValue) (s : State) : (returnToHost v s).wcnt = s.wcnt := rfl
@[simp] theorem returnToHost_wire (v : HostValue) (s : State) : (returnToHost v s).wire = s.wire := rfl
@[simp] theorem returnToHost_cfg (v : HostValue) (s : State) : (returnToHost v s).cfg = s.cfg := rfl
@[simp] theorem returnToHost_answers (v : HostValue) (s : State) : (returnToHost v s).answers = s.answers := rfl
@[simp] theorem returnToHost_host (v : HostValue) (s : State) : (returnToHost v s).host = s.host := rfl
@[simp] theorem returnToHost_seen (v : HostValue) (s : State) : (returnToHost v s).seen = s.seen ++ [v] := rfl
@[simp] theorem returnToHost_draws (v : HostValue) (s : State) : (returnToHost v s).draws = s.draws := rfl
@[simp] theorem returnToHost_turns (v : HostValue) (s : State) : (returnToHost v s).turns = s.turns := rfl

/-! ### `discard` -/

@[simp] theorem discard_eq (k : Index) (rx : Byte) (s : State) : discard k rx s = s := rfl

end Sys2Proof.Machine
end

