-- ==== Sys2Proof/Laws/Ops.lean ====
section
/-!
SUPPORT. What the page buffer's operations, a read of BUF and an exchange can do, said once.
-/

namespace Sys2Proof.Machine

/-! ### The page buffer -/

@[simp] theorem Memory.read_nil (a : Nat) : Memory.read [] a = none := rfl

theorem Memory.read_cons (b : Nat) (w : Byte) (m : Memory) (a : Nat) :
    Memory.read ((b, w) :: m) a = if b = a then some w else Memory.read m a := rfl

/-- A read after a write to the same index gives the value written. -/
@[simp] theorem Memory.read_write_same (m : Memory) (a : Nat) (v : Byte) :
    Memory.read (Memory.write m a v) a = some v := by
  induction m with
  | nil => simp [Memory.write, Memory.read_cons]
  | cons c m ih =>
    obtain ⟨b, w⟩ := c
    simp only [Memory.write]
    split_ifs with h₁ h₂
    · simp [Memory.read_cons]
    · simp [Memory.read_cons]
    · rw [Memory.read_cons, if_neg (fun e => h₂ e.symm), ih]

/-- A write leaves every other index alone. -/
theorem Memory.read_write_other (m : Memory) (a c : Nat) (v : Byte) (h : c ≠ a) :
    Memory.read (Memory.write m a v) c = Memory.read m c := by
  induction m with
  | nil => simp [Memory.write, Memory.read_cons, Ne.symm h]
  | cons p m ih =>
    obtain ⟨b, w⟩ := p
    simp only [Memory.write]
    split_ifs with h₁ h₂
    · rw [Memory.read_cons, if_neg (Ne.symm h)]
    · subst h₂
      simp [Memory.read_cons, Ne.symm h]
    · simp [Memory.read_cons, ih]

/-- Both laws in one. -/
theorem Memory.read_write (m : Memory) (a c : Nat) (v : Byte) :
    Memory.read (Memory.write m a v) c = if c = a then some v else Memory.read m c := by
  split_ifs with h
  · rw [h, Memory.read_write_same]
  · exact Memory.read_write_other m a c v h

/-- The canonical form from a higher index is one from a lower. -/
theorem Memory.wfFrom_mono {lo lo' : Nat} (h : lo ≤ lo') (m : Memory)
    (hm : Memory.wfFrom lo' m = true) : Memory.wfFrom lo m = true := by
  cases m with
  | nil => rfl
  | cons c m =>
    simp only [Memory.wfFrom, Bool.and_eq_true, decide_eq_true_eq] at hm ⊢
    exact ⟨⟨h.trans hm.1.1, hm.1.2⟩, hm.2⟩

/-- A write inside the page buffer keeps the canonical form. -/
theorem Memory.wfFrom_write (m : Memory) (lo a : Nat) (v : Byte) (hlo : lo ≤ a) (ha : a < 256)
    (hm : Memory.wfFrom lo m = true) : Memory.wfFrom lo (Memory.write m a v) = true := by
  induction m generalizing lo with
  | nil => simp [Memory.write, Memory.wfFrom, hlo, ha]
  | cons c m ih =>
    obtain ⟨b, w⟩ := c
    simp only [Memory.wfFrom, Bool.and_eq_true, decide_eq_true_eq] at hm
    simp only [Memory.write]
    split_ifs with h₁ h₂
    · simp only [Memory.wfFrom, Bool.and_eq_true, decide_eq_true_eq]
      exact ⟨⟨hlo, ha⟩, ⟨h₁, hm.1.2⟩, hm.2⟩
    · subst h₂
      simp only [Memory.wfFrom, Bool.and_eq_true, decide_eq_true_eq]
      exact ⟨⟨hlo, ha⟩, hm.2⟩
    · simp only [Memory.wfFrom, Bool.and_eq_true, decide_eq_true_eq]
      exact ⟨hm.1, ih (b + 1) (by omega) hm.2⟩

/-- A write to one of the 256 bytes keeps the page buffer well formed. -/
theorem Memory.wf_write (m : Memory) (a : Nat) (v : Byte) (ha : a < 256) (hm : Memory.wf m = true) :
    Memory.wf (Memory.write m a v) = true := Memory.wfFrom_write m 0 a v (Nat.zero_le a) ha hm

/-- Nothing is listed below the bound of the canonical form. -/
theorem Memory.read_below {lo : Nat} (m : Memory) (hm : Memory.wfFrom lo m = true) (a : Nat)
    (ha : a < lo) : Memory.read m a = none := by
  induction m generalizing lo with
  | nil => rfl
  | cons c m ih =>
    obtain ⟨b, w⟩ := c
    simp only [Memory.wfFrom, Bool.and_eq_true, decide_eq_true_eq] at hm
    rw [Memory.read_cons, if_neg (by omega)]
    exact ih hm.2 (by omega)

/-- Nothing is listed outside the 256 bytes. -/
theorem Memory.read_outside {lo : Nat} (m : Memory) (hm : Memory.wfFrom lo m = true) (a : Nat)
    (ha : 256 ≤ a) : Memory.read m a = none := by
  induction m generalizing lo with
  | nil => rfl
  | cons c m ih =>
    obtain ⟨b, w⟩ := c
    simp only [Memory.wfFrom, Bool.and_eq_true, decide_eq_true_eq] at hm
    rw [Memory.read_cons, if_neg (by omega)]
    exact ih hm.2

/-- The canonical form is canonical: two well-formed buffers that read alike are equal data. -/
theorem Memory.ext_of_wfFrom {lo : Nat} (m m' : Memory) (hm : Memory.wfFrom lo m = true)
    (hm' : Memory.wfFrom lo m' = true) (h : ∀ a, Memory.read m a = Memory.read m' a) : m = m' := by
  induction m generalizing lo m' with
  | nil =>
    cases m' with
    | nil => rfl
    | cons c m' =>
      have := h c.1
      simp [Memory.read] at this
  | cons c m ih =>
    obtain ⟨b, w⟩ := c
    simp only [Memory.wfFrom, Bool.and_eq_true, decide_eq_true_eq] at hm
    cases m' with
    | nil =>
      have := h b
      simp [Memory.read] at this
    | cons c' m' =>
      obtain ⟨b', w'⟩ := c'
      simp only [Memory.wfFrom, Bool.and_eq_true, decide_eq_true_eq] at hm'
      have hbb : b = b' := by
        by_contra hne
        rcases Nat.lt_or_gt_of_ne hne with hlt | hgt
        · have := h b
          rw [Memory.read_cons, if_pos rfl, Memory.read_cons, if_neg (Ne.symm hne),
            Memory.read_below m' hm'.2 b (by omega)] at this
          cases this
        · have := h b'
          rw [Memory.read_cons, if_neg hne, Memory.read_cons, if_pos rfl,
            Memory.read_below m hm.2 b' (by omega)] at this
          cases this
      subst hbb
      have hw : w = w' := by
        have := h b
        rw [Memory.read_cons, if_pos rfl, Memory.read_cons, if_pos rfl] at this
        exact Option.some.inj this
      subst hw
      have : m = m' := by
        refine ih m' hm.2 hm'.2 fun a => ?_
        by_cases hab : b = a
        · rw [Memory.read_below m hm.2 a (by omega), Memory.read_below m' hm'.2 a (by omega)]
        · have := h a
          rwa [Memory.read_cons, if_neg hab, Memory.read_cons, if_neg hab] at this
      rw [this]

@[simp] theorem reset_buf_wf : Memory.wf State.reset.buf = true := rfl

/-! ### A read of BUF -/

theorem bufRead_of_some {i : Nat} {s : State} {v : Byte} (h : Memory.read s.buf i = some v) :
    bufRead i s = (v, s) := by simp [bufRead, h]

theorem bufRead_of_none {i : Nat} {s : State} (h : Memory.read s.buf i = none) :
    bufRead i s = (Config.freeByte s.draws, { s with draws := s.draws + 1 }) := by simp [bufRead, h]

/-- A read of BUF changes the count of draws and nothing else. -/
theorem bufRead_snd (i : Nat) (s : State) :
    (bufRead i s).2 = { s with draws := s.draws + if (Memory.read s.buf i).isNone then 1 else 0 } := by
  cases h : Memory.read s.buf i <;> simp [bufRead, h]

/-! ### The exchange -/

/-- The answers of the transport to the exchange at hand, in full. -/
theorem takeAnswer_eq_some {s t : State} {a : Answer} (h : takeAnswer s = some (a, t)) :
    (∃ rx rest, a = .ok rx ∧ s.answers = .ok rx :: rest ∧ t = { s with answers := rest }) ∨
    (∃ rest, a = .fault ∧ s.answers = .fault :: rest ∧ s.cfg.tCanFault = true ∧
      t = { s with answers := rest }) := by
  unfold takeAnswer at h
  split at h
  · cases h
  · rename_i rx rest hs
    obtain ⟨rfl, rfl⟩ : Answer.ok rx = a ∧ { s with answers := rest } = t := by simpa using h
    exact .inl ⟨rx, rest, rfl, hs, rfl⟩
  · rename_i rest hs
    split_ifs at h with hf
    obtain ⟨rfl, rfl⟩ : Answer.fault = a ∧ { s with answers := rest } = t := by simpa using h
    exact .inr ⟨rest, rfl, hs, hf, rfl⟩

theorem takeAnswer_ok {s : State} {rx : Byte} {rest : List Answer} (h : s.answers = .ok rx :: rest) :
    takeAnswer s = some (.ok rx, { s with answers := rest }) := by simp [takeAnswer, h]

theorem takeAnswer_fault {s : State} {rest : List Answer} (h : s.answers = .fault :: rest)
    (hf : s.cfg.tCanFault = true) :
    takeAnswer s = some (.fault, { s with answers := rest }) := by simp [takeAnswer, h, hf]

theorem takeAnswer_silent {s : State} (h : s.answers = []) : takeAnswer s = none := by
  simp [takeAnswer, h]

/-- Everything a taken exchange step can be: the transport answered `Ok(rx)` and the row's effect was
done, or it answered `Fault` and the exception was taken. -/
theorem xfer_eq_moved {tx : Byte} {f : Byte → State → State} {s t : State}
    (h : xfer tx f s = .moved t) :
    s.cs = true ∧
    ((∃ rx rest, s.answers = .ok rx :: rest ∧
        t = f rx (logEvent (.x tx rx) { s with answers := rest })) ∨
      (∃ rest, s.answers = .fault :: rest ∧ s.cfg.tCanFault = true ∧
        t = faultEntry tx { s with answers := rest })) := by
  unfold xfer at h
  split_ifs at h with hc
  refine ⟨hc, ?_⟩
  split at h
  · cases h
  · rename_i rx u hu
    rcases takeAnswer_eq_some hu with ⟨rx', rest, ha, hs, rfl⟩ | ⟨rest, ha, _⟩
    · cases ha
      exact .inl ⟨rx, rest, hs, by simpa using h.symm⟩
    · cases ha
  · rename_i u hu
    rcases takeAnswer_eq_some hu with ⟨rx', rest, ha, _⟩ | ⟨rest, _, hs, hf, rfl⟩
    · cases ha
    · exact .inr ⟨rest, hs, hf, by simpa using h.symm⟩

/-- An exchange answered `Ok(rx)`. -/
theorem xfer_ok {tx : Byte} {f : Byte → State → State} {s : State} {rx : Byte} {rest : List Answer}
    (hc : s.cs = true) (h : s.answers = .ok rx :: rest) :
    xfer tx f s = .moved (f rx (logEvent (.x tx rx) { s with answers := rest })) := by
  simp [xfer, hc, takeAnswer_ok h]

/-- An exchange answered `Fault`. -/
theorem xfer_fault {tx : Byte} {f : Byte → State → State} {s : State} {rest : List Answer}
    (hc : s.cs = true) (h : s.answers = .fault :: rest) (hf : s.cfg.tCanFault = true) :
    xfer tx f s = .moved (faultEntry tx { s with answers := rest }) := by
  simp [xfer, hc, takeAnswer_fault h hf]

/-- An exchange not answered waits. -/
theorem xfer_silent {tx : Byte} {f : Byte → State → State} {s : State} (hc : s.cs = true)
    (h : takeAnswer s = none) : xfer tx f s = .waiting := by simp [xfer, hc, h]

theorem xfer_eq_waiting {tx : Byte} {f : Byte → State → State} {s : State}
    (h : xfer tx f s = .waiting) : s.cs = true ∧ takeAnswer s = none := by
  unfold xfer at h
  split_ifs at h with hc
  refine ⟨hc, ?_⟩
  split at h <;> simp_all

/-- An exchange is without a row only while CS = 0. -/
theorem xfer_eq_noRow {tx : Byte} {f : Byte → State → State} {s : State} :
    xfer tx f s = .noRow ↔ s.cs = false := by
  unfold xfer
  split_ifs with hc
  · constructor
    · intro h
      split at h <;> cases h
    · intro h
      simp [hc] at h
  · simp [Bool.eq_false_iff.mpr hc]

end Sys2Proof.Machine
end

