-- ==== Sys2Proof/Laws/Sequencer.lean ====
section
/-!
SUPPORT. What the shared rows of the transition table can do, and running an operation: the equations of
one turn and the two inductions over a run, packaged once.
-/

namespace Sys2Proof.Machine

/-! ### The shared rows -/

theorem selectRow_eq_moved {s t : State} (h : selectRow s = .moved t) :
    s.ix = 0 ∧ t = goto .opc 0 (csAssert s) := by
  unfold selectRow at h
  split_ifs at h with hi
  exact ⟨hi, by simpa using h.symm⟩

theorem opcRow_eq_moved {next : Phase} {s t : State} (h : opcRow next s = .moved t) :
    s.ix = 0 ∧ xfer (opByte s.cfg s.opr s.ar) (fun _ u => goto next 0 u) s = .moved t := by
  unfold opcRow at h
  split_ifs at h with hi
  exact ⟨hi, h⟩

theorem addrRow_eq_moved {next : Phase} {s t : State} (h : addrRow next s = .moved t) :
    (s.ix = 0 ∧ xfer (addrHi s.ar) (fun _ u => goto .addr 1 u) s = .moved t) ∨
    (s.ix = 1 ∧ xfer (addrMid s.ar) (fun _ u => goto .addr 2 u) s = .moved t) ∨
    (s.ix = 2 ∧ xfer (addrLo s.ar) (fun _ u => goto next 0 u) s = .moved t) := by
  unfold addrRow at h
  split_ifs at h with h0 h1 h2
  · exact .inl ⟨h0, h⟩
  · exact .inr (.inl ⟨h1, h⟩)
  · exact .inr (.inr ⟨h2, h⟩)

theorem countedRow_eq_moved {n : Nat} {p next : Phase} {tx : Byte} {put : Index → Byte → State → State}
    {fin : State → State} {s t : State} (h : countedRow n p next tx put fin s = .moved t) :
    (s.ix < lastIx n ∧ xfer tx (fun rx u => goto p (s.ix + 1) (put s.ix rx u)) s = .moved t) ∨
    (s.ix = lastIx n ∧ xfer tx (fun rx u => goto next 0 (fin (put s.ix rx u))) s = .moved t) := by
  unfold countedRow at h
  split_ifs at h with h0 h1
  · exact .inl ⟨h0, h⟩
  · exact .inr ⟨h1, h⟩

theorem deselectRow_eq_moved {done : State → State} {s t : State} (h : deselectRow done s = .moved t) :
    s.ix = 0 ∧
    ((s.flt = true ∧ t = faultExit (csDeassert s)) ∨ (s.flt = false ∧ t = done (csDeassert s))) := by
  unfold deselectRow at h
  split_ifs at h with hi hf
  · exact ⟨hi, .inl ⟨hf, by simpa using h.symm⟩⟩
  · exact ⟨hi, .inr ⟨by simpa using hf, by simpa using h.symm⟩⟩

theorem wakeRow_eq_moved {s t : State} (h : wakeRow s = .moved t) :
    s.ix = 0 ∧ t = complete 0 0 (spinWake s) := by
  unfold wakeRow at h
  split_ifs at h with hi
  exact ⟨hi, by simpa using h.symm⟩

/-- The last index of a phase of `n` exchanges, as a number. -/
theorem toNat_lastIx {n : Nat} (h₀ : 0 < n) (h : n ≤ 2048) : (lastIx n).toNat = n - 1 := by
  simp only [lastIx, BitVec.toNat_ofNat]
  omega

/-! ### Running an operation -/

@[simp] theorem runRows_zero (row : State → FramerMove) (s : State) : runRows row 0 s = .next s := rfl

theorem runRows_moved {row : State → FramerMove} {s t : State} (n : Nat) (h : row s = .moved t)
    (hb : t.busy = true) : runRows row (n + 1) s = runRows row n t := by simp [runRows, h, hb]

theorem runRows_done {row : State → FramerMove} {s t : State} (n : Nat) (h : row s = .moved t)
    (hb : t.busy = false) : runRows row (n + 1) s = .next t := by simp [runRows, h, hb]

theorem runRows_waiting {row : State → FramerMove} {s : State} (n : Nat) (h : row s = .waiting) :
    runRows row n s = .next s := by cases n <;> simp [runRows, h]

/-- What every framer step keeps, a run keeps. -/
theorem runRows_keeps {row : State → FramerMove} {P : State → Prop}
    (hrow : ∀ s t, s.busy = true → P s → row s = .moved t → P t) (n : Nat) {s t : State}
    (hb : s.busy = true) (hs : P s) (h : runRows row n s = .next t) : P t := by
  induction n generalizing s with
  | zero => cases h; exact hs
  | succ n ih =>
    unfold runRows at h
    split at h
    · rename_i u hu
      split_ifs at h with hub
      · exact ih hub (hrow s u hb hs hu) h
      · cases h; exact hrow s _ hb hs hu
    · cases h; exact hs
    · cases h

/-- Where every framer step under `P` is listed, a run answers a next state. -/
theorem runRows_answers {row : State → FramerMove} {P : State → Prop}
    (hrow : ∀ s t, s.busy = true → P s → row s = .moved t → P t)
    (hlisted : ∀ s, s.busy = true → P s → row s ≠ .noRow) (n : Nat) {s : State}
    (hb : s.busy = true) (hs : P s) : ∃ t, runRows row n s = .next t := by
  induction n generalizing s with
  | zero => exact ⟨s, rfl⟩
  | succ n ih =>
    unfold runRows
    split
    · rename_i u hu
      split_ifs with hub
      · exact ih hub (hrow s u hb hs hu)
      · exact ⟨u, rfl⟩
    · exact ⟨s, rfl⟩
    · rename_i hn
      exact absurd hn (hlisted s hb hs)

/-- Two columns that agree under what their steps keep run alike. -/
theorem runRows_congr {row row' : State → FramerMove} {P : State → Prop}
    (hrow : ∀ s t, P s → row s = .moved t → P t) (heq : ∀ s, P s → row s = row' s) (n : Nat)
    {s : State} (hs : P s) : runRows row n s = runRows row' n s := by
  induction n generalizing s with
  | zero => rfl
  | succ n ih =>
    simp only [runRows, ← heq s hs]
    cases h : row s with
    | moved t =>
      dsimp only
      rw [ih (hrow s t hs h)]
    | waiting => rfl
    | noRow => rfl

/-- A command offered to a busy framer is not accepted. -/
@[simp] theorem operate_busy {row : State → FramerMove} {sel : Selector} {a : Word} {s : State}
    (h : s.busy = true) : operate row sel a s = .next s := by simp [operate, h]

/-- Steps taken in two runs are steps taken in one, where the first run ended for want of steps. -/
theorem runRows_add {row : State → FramerMove} (m n : Nat) {s t : State}
    (hb : s.busy = true) (h : runRows row m s = .next t) (ht : t.busy = true) (hw : row t ≠ .waiting) :
    runRows row n t = runRows row (m + n) s := by
  induction m generalizing s with
  | zero => cases h; simp
  | succ m ih =>
    rw [show m + 1 + n = (m + n) + 1 by omega]
    unfold runRows at h
    cases hs : row s with
    | moved u =>
      simp only [hs] at h
      split_ifs at h with hu
      · rw [runRows_moved _ hs hu]
        exact ih hu h
      · cases h
        exact absurd ht hu
    | waiting =>
      simp only [hs] at h
      cases h
      exact absurd hs hw
    | noRow =>
      simp only [hs] at h
      cases h

/-- The framer's turn with no entry left. -/
theorem runTurn_nil {row : State → FramerMove} {s : State} (h : s.turns = []) :
    runTurn row s = runRows row maxFramerSteps s := by
  rw [runTurn, h]
  exact congrArg (runRows row maxFramerSteps) (by rw [List.tail, ← h])

/-- The framer's turn of k steps. -/
theorem runTurn_cons {row : State → FramerMove} {s : State} {k : Nat} {ts : List Nat}
    (h : s.turns = k :: ts) : runTurn row s = runRows row k { s with turns := ts } := by
  rw [runTurn, h]
  rfl

/-- A command offered to an idle framer is accepted and the framer has its turn. -/
@[simp] theorem operate_idle {row : State → FramerMove} {sel : Selector} {a : Word} {s : State}
    (h : s.busy = false) : operate row sel a s = runTurn row (accept sel a s) := by
  simp [operate, h]

end Sys2Proof.Machine
end

