-- ==== Sys2Proof/Laws/Table.lean ====
section
/-!
SUPPORT. The inversion of the framer's step: whatever it does is a row of the transition table. Every
proof about a framer step starts from `tableRow_of_framerStep`; `framerStep_xferRow` gives the exchange a
row makes.
-/

namespace Sys2Proof.Machine

/-! ### The column by selector -/

@[simp] theorem rowsOf_0 : rowsOf 0#3 = issueCmdRow := rfl
@[simp] theorem rowsOf_1 : rowsOf 1#3 = readStatusRow := rfl
@[simp] theorem rowsOf_2 : rowsOf 2#3 = enterUdpdRow := rfl
@[simp] theorem rowsOf_3 : rowsOf 3#3 = exitSleepRow := rfl
@[simp] theorem rowsOf_4 : rowsOf 4#3 = readPageRow := rfl
@[simp] theorem rowsOf_5 : rowsOf 5#3 = writePageRow := rfl
@[simp] theorem rowsOf_6 : rowsOf 6#3 = erasePageRow := rfl
@[simp] theorem rowsOf_7 : rowsOf 7#3 = discoverSizeRow := rfl

/-- A selector is one of the eight. -/
theorem selector_cases (k : Selector) :
    k = 0#3 ∨ k = 1#3 ∨ k = 2#3 ∨ k = 3#3 ∨ k = 4#3 ∨ k = 5#3 ∨ k = 6#3 ∨ k = 7#3 := by
  revert k
  decide

/-! ### The last indexes -/

theorem lastIx_page : lastIx pageBytes = 255 := rfl
theorem lastIx_hdr : lastIx sfdpHdrReads = 10 := rfl
theorem lastIx_align : lastIx sfdpAlignReads = 0 := rfl
theorem lastIx_size : lastIx sfdpSizeBytes = 3 := rfl

/-- The skip count as a number (R118). -/
theorem toNat_skipCount (h : Byte) : (skipCount h).toNat = 8 * h.toNat + 4 := by
  have := h.isLt
  simp only [skipCount, sfdpSkipShift, sfdpSkipBias, BitVec.truncate_eq_setWidth, BitVec.toNat_add,
    BitVec.toNat_shiftLeft, BitVec.toNat_setWidth, Nat.shiftLeft_eq, BitVec.toNat_ofNat]
  omega

theorem lastIx_skip (h : Byte) : lastIx (skipCount h).toNat = skipCount h - 1 := by
  have h4 := toNat_skipCount h
  have := h.isLt
  apply BitVec.eq_of_toNat_eq
  have h1 : (1 : Index).toNat = 1 := rfl
  rw [toNat_lastIx (by omega) (by omega), BitVec.toNat_sub, h1]
  omega

/-! ### The inversion -/

/-- A taken exchange of a row of the table, whose effect is that row's. -/
theorem tableRow_of_xfer {tx : Byte} {f : Byte → State → State} {s t : State}
    (h : xfer tx f s = .moved t) (hr : XferRow s 0 tx f) : TableRow s t := by
  obtain ⟨hc, ⟨rx, rest, ha, rfl⟩ | ⟨rest, ha, hf, rfl⟩⟩ := xfer_eq_moved h
  · exact .ok hc hr ha
  · exact .fault hc hr ha hf

theorem tableRow_of_selectRow {s t : State} (hp : s.ph = .select) (h : selectRow s = .moved t) :
    TableRow s t := by
  obtain ⟨hi, rfl⟩ := selectRow_eq_moved h
  exact .select hp hi

theorem tableRow_of_oneByteRow {s t : State} (ho : s.opr = 0#3 ∨ s.opr = 2#3)
    (h : oneByteRow s = .moved t) : TableRow s t := by
  unfold oneByteRow at h
  split at h
  · rename_i hp; exact tableRow_of_selectRow hp h
  · rename_i hp
    obtain ⟨hi, h⟩ := opcRow_eq_moved h
    exact tableRow_of_xfer h (.opcToDeselect hp hi (by tauto))
  · rename_i hp
    obtain ⟨hi, ⟨hf, rfl⟩ | ⟨hf, rfl⟩⟩ := deselectRow_eq_moved h
    · exact .deselectFault hp hi hf
    · exact .deselectDone hp hi hf (by rcases ho with ho | ho <;> simp [ho])
  all_goals cases h

theorem tableRow_of_readStatusRow {s t : State} (ho : s.opr = 1#3)
    (h : readStatusRow s = .moved t) : TableRow s t := by
  unfold readStatusRow at h
  split at h
  · rename_i hp; exact tableRow_of_selectRow hp h
  · rename_i hp
    obtain ⟨hi, h⟩ := opcRow_eq_moved h
    exact tableRow_of_xfer h (.opcToData hp hi ho)
  · rename_i hp
    split_ifs at h with hi
    exact tableRow_of_xfer h (.dataStatus hp hi ho)
  · rename_i hp
    obtain ⟨hi, ⟨hf, rfl⟩ | ⟨hf, rfl⟩⟩ := deselectRow_eq_moved h
    · exact .deselectFault hp hi hf
    · exact .deselectStatus hp hi hf ho
  all_goals cases h

theorem tableRow_of_exitSleepRow {s t : State} (ho : s.opr = 3#3)
    (h : exitSleepRow s = .moved t) : TableRow s t := by
  unfold exitSleepRow at h
  split at h
  · rename_i hp; exact tableRow_of_selectRow hp h
  · rename_i hp
    obtain ⟨hi, h⟩ := opcRow_eq_moved h
    exact tableRow_of_xfer h (.opcToDeselect hp hi (by tauto))
  · rename_i hp
    obtain ⟨hi, ⟨hf, rfl⟩ | ⟨hf, rfl⟩⟩ := deselectRow_eq_moved h
    · exact .deselectFault hp hi hf
    · exact .deselectWake hp hi hf ho
  · rename_i hp
    obtain ⟨hi, rfl⟩ := wakeRow_eq_moved h
    exact .wake hp hi ho
  all_goals cases h

/-- The address phase of a page operation; `hlast` is what follows its last byte. -/
theorem tableRow_of_addrRow {next : Phase} {s t : State} (hp : s.ph = .addr)
    (ho : s.opr = 4#3 ∨ s.opr = 5#3 ∨ s.opr = 6#3)
    (hlast : s.ix = 2 → XferRow s 0 (addrLo s.ar) (fun _ u => { u with ph := next, ix := 0 }))
    (h : addrRow next s = .moved t) : TableRow s t := by
  rcases addrRow_eq_moved h with ⟨hi, h⟩ | ⟨hi, h⟩ | ⟨hi, h⟩
  · exact tableRow_of_xfer h (.addr0 hp hi ho)
  · exact tableRow_of_xfer h (.addr1 hp hi ho)
  · exact tableRow_of_xfer h (hlast hi)

theorem tableRow_of_readPageRow {s t : State} (ho : s.opr = 4#3)
    (h : readPageRow s = .moved t) : TableRow s t := by
  unfold readPageRow at h
  split at h
  · rename_i hp; exact tableRow_of_selectRow hp h
  · rename_i hp
    obtain ⟨hi, h⟩ := opcRow_eq_moved h
    exact tableRow_of_xfer h (.opcToAddr hp hi (by tauto))
  · rename_i hp
    exact tableRow_of_addrRow hp (by tauto) (fun hi => .addr2ToData hp hi (by tauto)) h
  · rename_i hp
    rcases countedRow_eq_moved h with ⟨hi, h⟩ | ⟨hi, h⟩
    · exact tableRow_of_xfer h (.dataRead hp hi ho)
    · have hi : s.ix = 255 := hi
      rw [hi] at h
      exact tableRow_of_xfer h (.dataReadLast hp hi ho)
  · rename_i hp
    obtain ⟨hi, ⟨hf, rfl⟩ | ⟨hf, rfl⟩⟩ := deselectRow_eq_moved h
    · exact .deselectFault hp hi hf
    · exact .deselectDone hp hi hf (by simp [ho])
  all_goals cases h

/-- A payload exchange: the byte sent is the one BUF holds or a draw. -/
theorem tableRow_of_payload {s t : State} {put : Byte → State → State}
    (hsome : ∀ v, Memory.read s.buf s.ix.toNat = some v → XferRow s 0 v put)
    (hnone : Memory.read s.buf s.ix.toNat = none → XferRow s 1 (Config.freeByte s.draws) put)
    (h : xfer (bufRead s.ix.toNat s).1 put (bufRead s.ix.toNat s).2 = .moved t) : TableRow s t := by
  cases hv : Memory.read s.buf s.ix.toNat with
  | some v =>
    rw [bufRead_of_some hv] at h
    exact tableRow_of_xfer h (hsome v hv)
  | none =>
    rw [bufRead_of_none hv] at h
    obtain ⟨hc, ⟨rx, rest, ha, rfl⟩ | ⟨rest, ha, hf, rfl⟩⟩ := xfer_eq_moved h
    · exact TableRow.ok (s := s) hc (hnone hv) ha
    · exact TableRow.fault (s := s) hc (hnone hv) ha hf

theorem tableRow_of_writePageRow {s t : State} (ho : s.opr = 5#3)
    (h : writePageRow s = .moved t) : TableRow s t := by
  unfold writePageRow at h
  split at h
  · rename_i hp; exact tableRow_of_selectRow hp h
  · rename_i hp
    obtain ⟨hi, h⟩ := opcRow_eq_moved h
    exact tableRow_of_xfer h (.opcToAddr hp hi (by tauto))
  · rename_i hp
    exact tableRow_of_addrRow hp (by tauto) (fun hi => .addr2ToData hp hi (by tauto)) h
  · rename_i hp
    have hix : (bufRead s.ix.toNat s).2.ix = s.ix := by rw [bufRead_snd]
    unfold payloadRow at h
    rcases countedRow_eq_moved h with ⟨hi, h⟩ | ⟨hi, h⟩
    · rw [hix] at hi h
      exact tableRow_of_payload (fun v hv => .dataWrite hp hi ho v hv)
        (fun hv => .dataWriteDraw hp hi ho hv) h
    · rw [hix] at hi
      have hi : s.ix = 255 := hi
      exact tableRow_of_payload (fun v hv => .dataWriteLast hp hi ho v (by rw [hi] at hv; exact hv))
        (fun hv => .dataWriteLastDraw hp hi ho (by rw [hi] at hv; exact hv)) h
  · rename_i hp
    obtain ⟨hi, ⟨hf, rfl⟩ | ⟨hf, rfl⟩⟩ := deselectRow_eq_moved h
    · exact .deselectFault hp hi hf
    · exact .deselectDone hp hi hf (by simp [ho])
  all_goals cases h

theorem tableRow_of_erasePageRow {s t : State} (ho : s.opr = 6#3)
    (h : erasePageRow s = .moved t) : TableRow s t := by
  unfold erasePageRow at h
  split at h
  · rename_i hp; exact tableRow_of_selectRow hp h
  · rename_i hp
    obtain ⟨hi, h⟩ := opcRow_eq_moved h
    exact tableRow_of_xfer h (.opcToAddr hp hi (by tauto))
  · rename_i hp
    exact tableRow_of_addrRow hp (by tauto) (fun hi => .addr2ToDeselect hp hi ho) h
  · rename_i hp
    obtain ⟨hi, ⟨hf, rfl⟩ | ⟨hf, rfl⟩⟩ := deselectRow_eq_moved h
    · exact .deselectFault hp hi hf
    · exact .deselectDone hp hi hf (by simp [ho])
  all_goals cases h

theorem tableRow_of_discoverSizeRow {s t : State} (ho : s.opr = 7#3)
    (h : discoverSizeRow s = .moved t) : TableRow s t := by
  unfold discoverSizeRow at h
  split at h
  · rename_i hp; exact tableRow_of_selectRow hp h
  · rename_i hp
    obtain ⟨hi, h⟩ := opcRow_eq_moved h
    exact tableRow_of_xfer h (.opcToHdr hp hi ho)
  · rename_i hp
    rcases countedRow_eq_moved h with ⟨hi, h⟩ | ⟨hi, h⟩
    · exact tableRow_of_xfer h (.hdr hp hi ho)
    · exact tableRow_of_xfer h (.hdrLast hp hi ho)
  · rename_i hp
    rcases countedRow_eq_moved h with ⟨hi, h⟩ | ⟨hi, h⟩
    · rw [lastIx_align] at hi
      exact absurd hi (by simp [BitVec.lt_def])
    · exact tableRow_of_xfer h (.align hp hi ho)
  · rename_i hp
    rcases countedRow_eq_moved h with ⟨hi, h⟩ | ⟨hi, h⟩ <;> rw [lastIx_skip] at hi
    · exact tableRow_of_xfer h (.skip hp hi ho)
    · exact tableRow_of_xfer h (.skipLast hp hi ho)
  · rename_i hp
    rcases countedRow_eq_moved h with ⟨hi, h⟩ | ⟨hi, h⟩
    · exact tableRow_of_xfer h (.size hp hi ho)
    · exact tableRow_of_xfer h (.sizeLast hp hi ho)
  · rename_i hp
    obtain ⟨hi, ⟨hf, rfl⟩ | ⟨hf, rfl⟩⟩ := deselectRow_eq_moved h
    · exact .deselectFault hp hi hf
    · exact .deselectSize hp hi hf ho
  all_goals cases h

/-- Everything a taken step of the framer can be: a row of the transition table. -/
theorem tableRow_of_framerStep {s t : State} (h : framerStep s = .moved t) : TableRow s t := by
  unfold framerStep at h
  rcases selector_cases s.opr with ho | ho | ho | ho | ho | ho | ho | ho <;> rw [ho] at h
  · exact tableRow_of_oneByteRow (.inl ho) h
  · exact tableRow_of_readStatusRow ho h
  · exact tableRow_of_oneByteRow (.inr ho) h
  · exact tableRow_of_exitSleepRow ho h
  · exact tableRow_of_readPageRow ho h
  · exact tableRow_of_writePageRow ho h
  · exact tableRow_of_erasePageRow ho h
  · exact tableRow_of_discoverSizeRow ho h

/-! ### The rows with an exchange, forward -/

/-- An exchange of a counted phase that is not the last. -/
theorem countedRow_of_lt {n : Nat} {p q : Phase} {tx : Byte} {put : Index → Byte → State → State}
    {fin : State → State} {s : State} (h : s.ix < lastIx n) :
    countedRow n p q tx put fin s = xfer tx (fun rx t => goto p (s.ix + 1) (put s.ix rx t)) s :=
  if_pos h

/-- The last exchange of a counted phase. -/
theorem countedRow_of_last {n : Nat} {p q : Phase} {tx : Byte} {put : Index → Byte → State → State}
    {fin : State → State} {s : State} (h : s.ix = lastIx n) :
    countedRow n p q tx put fin s = xfer tx (fun rx t => goto q 0 (fin (put s.ix rx t))) s := by
  simp [countedRow, h]

/-- The framer follows the column of its selector. -/
theorem framerStep_eq {s : State} {k : Selector} (ho : s.opr = k) : framerStep s = rowsOf k s := by
  rw [framerStep, ho]

/-- Phase SELECT is the same in every column. -/
theorem framerStep_select {s : State} (hp : s.ph = .select) : framerStep s = selectRow s := by
  rcases selector_cases s.opr with ho | ho | ho | ho | ho | ho | ho | ho <;> rw [framerStep_eq ho] <;>
    simp only [rowsOf_0, rowsOf_1, rowsOf_2, rowsOf_3, rowsOf_4, rowsOf_5, rowsOf_6, rowsOf_7,
      issueCmdRow, readStatusRow, enterUdpdRow, oneByteRow, exitSleepRow, readPageRow, writePageRow,
      erasePageRow, discoverSizeRow, hp]

/-- Phase DATA of WRITE_PAGE. -/
theorem framerStep_payload {s : State} (hp : s.ph = .data) (ho : s.opr = 5#3) :
    framerStep s = payloadRow s := by
  rw [framerStep_eq ho]
  simp only [rowsOf_5, writePageRow, hp]

/-- At a row of the table with an `Xfer` the framer makes that exchange, after the draw of its byte if
there is one. -/
theorem framerStep_xferRow {s : State} {d : Nat} {tx : Byte} {put : Byte → State → State}
    (hr : XferRow s d tx put) :
    framerStep s = xfer tx put { s with draws := s.draws + d } := by
  cases hr with
  | opcToDeselect hp hi ho =>
    rcases ho with ho|ho|ho <;> rw [framerStep_eq ho] <;>
      (conv_lhs =>
        simp only [rowsOf_0, rowsOf_2, rowsOf_3, issueCmdRow, enterUdpdRow, oneByteRow, exitSleepRow, hp]) <;>
      exact if_pos hi
  | opcToData hp hi ho =>
    rw [framerStep_eq ho]
    conv_lhs => simp only [rowsOf_1, readStatusRow, hp]
    exact if_pos hi
  | opcToAddr hp hi ho =>
    rcases ho with ho|ho|ho <;> rw [framerStep_eq ho] <;>
      (conv_lhs =>
        simp only [rowsOf_4, rowsOf_5, rowsOf_6, readPageRow, writePageRow, erasePageRow, hp]) <;>
      exact if_pos hi
  | opcToHdr hp hi ho =>
    rw [framerStep_eq ho]
    conv_lhs => simp only [rowsOf_7, discoverSizeRow, hp]
    exact if_pos hi
  | addr0 hp hi ho =>
    rcases ho with ho|ho|ho <;> rw [framerStep_eq ho] <;>
      (conv_lhs =>
        simp only [rowsOf_4, rowsOf_5, rowsOf_6, readPageRow, writePageRow, erasePageRow, hp]) <;>
      exact if_pos hi
  | addr1 hp hi ho =>
    rcases ho with ho|ho|ho <;> rw [framerStep_eq ho] <;>
      (conv_lhs =>
        simp only [rowsOf_4, rowsOf_5, rowsOf_6, readPageRow, writePageRow, erasePageRow, hp]) <;>
      exact (if_neg (by rw [hi]; decide)).trans (if_pos hi)
  | addr2ToDeselect hp hi ho =>
    rw [framerStep_eq ho]; (conv_lhs => simp only [rowsOf_6, erasePageRow, hp])
    exact (if_neg (by rw [hi]; decide)).trans ((if_neg (by rw [hi]; decide)).trans (if_pos hi))
  | addr2ToData hp hi ho =>
    rcases ho with ho|ho <;> rw [framerStep_eq ho] <;>
      (conv_lhs => simp only [rowsOf_4, rowsOf_5, readPageRow, writePageRow, hp]) <;>
      exact (if_neg (by rw [hi]; decide)).trans ((if_neg (by rw [hi]; decide)).trans (if_pos hi))
  | dataStatus hp hi ho =>
    rw [framerStep_eq ho]
    conv_lhs => simp only [rowsOf_1, readStatusRow, hp]
    exact if_pos hi
  | dataRead hp hi ho =>
    rw [framerStep_eq ho]
    conv_lhs => simp only [rowsOf_4, readPageRow, hp]
    exact countedRow_of_lt hi
  | dataReadLast hp hi ho =>
    rw [framerStep_eq ho]
    conv_lhs => rw [rowsOf_4]; simp only [readPageRow, hp]; rw [countedRow_of_last hi, hi]
    rfl
  | dataWrite hp hi ho _ hv =>
    rw [framerStep_payload hp ho, payloadRow, bufRead_of_some hv]; exact countedRow_of_lt hi
  | dataWriteDraw hp hi ho hv =>
    rw [framerStep_payload hp ho, payloadRow, bufRead_of_none hv]
    exact countedRow_of_lt (s := { s with draws := s.draws + 1 }) (n := pageBytes) hi
  | dataWriteLast hp hi ho _ hv =>
    have hv : Memory.read s.buf s.ix.toNat = some tx := by rw [hi]; exact hv
    rw [framerStep_payload hp ho, payloadRow, bufRead_of_some hv]; exact countedRow_of_last hi
  | dataWriteLastDraw hp hi ho hv =>
    have hv : Memory.read s.buf s.ix.toNat = none := by rw [hi]; exact hv
    rw [framerStep_payload hp ho, payloadRow, bufRead_of_none hv]
    exact countedRow_of_last (s := { s with draws := s.draws + 1 }) (n := pageBytes) hi
  | hdr hp hi ho =>
    rw [framerStep_eq ho]
    conv_lhs => simp only [rowsOf_7, discoverSizeRow, hp]
    exact countedRow_of_lt hi
  | hdrLast hp hi ho =>
    rw [framerStep_eq ho]
    conv_lhs => simp only [rowsOf_7, discoverSizeRow, hp]
    exact countedRow_of_last hi
  | align hp hi ho =>
    rw [framerStep_eq ho]
    conv_lhs => simp only [rowsOf_7, discoverSizeRow, hp]
    exact countedRow_of_last hi
  | skip hp hi ho =>
    rw [framerStep_eq ho]
    conv_lhs => simp only [rowsOf_7, discoverSizeRow, hp]
    exact countedRow_of_lt (by rw [lastIx_skip]; exact hi)
  | skipLast hp hi ho =>
    rw [framerStep_eq ho]
    conv_lhs => simp only [rowsOf_7, discoverSizeRow, hp]
    exact countedRow_of_last (by rw [lastIx_skip]; exact hi)
  | size hp hi ho =>
    rw [framerStep_eq ho]
    conv_lhs => simp only [rowsOf_7, discoverSizeRow, hp]
    exact countedRow_of_lt hi
  | sizeLast hp hi ho =>
    rw [framerStep_eq ho]
    conv_lhs => simp only [rowsOf_7, discoverSizeRow, hp]
    exact countedRow_of_last hi

end Sys2Proof.Machine
end

