-- ==== Sys2Proof/Laws/Framer.lean ====
section
/-!
SUPPORT. What no framer step touches, and the one shape all meanings have.
-/

namespace Sys2Proof.Machine

/-- Every meaning is: acceptance with the instruction's selector and operand, then its own column. -/
theorem exec_eq_operate (i : Instr) (s : State) :
    exec i s = operate (rowsOf i.sel) i.sel i.arg s := by cases i <;> rfl

/-- While BUSY = 1 a command is not accepted. -/
theorem exec_of_busy (i : Instr) {s : State} (h : s.busy = true) : exec i s = .next s := by
  rw [exec_eq_operate, operate_busy h]

/-- From an idle framer a meaning is the turn of its column after acceptance. -/
theorem exec_of_idle (i : Instr) {s : State} (h : s.busy = false) :
    exec i s = runTurn (rowsOf i.sel) (accept i.sel i.arg s) := by
  rw [exec_eq_operate, operate_idle h]

/-- The fields no step of the framer writes: OPR and AR (R16), the parameters (R153), the host's, and how the
turns fall. -/
structure SameOutside (s t : State) : Prop where
  opr_eq : t.opr = s.opr
  ar_eq : t.ar = s.ar
  cfg_eq : t.cfg = s.cfg
  host_eq : t.host = s.host
  seen_eq : t.seen = s.seen
  turns_eq : t.turns = s.turns

theorem SameOutside.refl (s : State) : SameOutside s s := ⟨rfl, rfl, rfl, rfl, rfl, rfl⟩

theorem SameOutside.trans {s t u : State} (h : SameOutside s t) (k : SameOutside t u) :
    SameOutside s u :=
  ⟨k.opr_eq.trans h.opr_eq, k.ar_eq.trans h.ar_eq, k.cfg_eq.trans h.cfg_eq,
    k.host_eq.trans h.host_eq, k.seen_eq.trans h.seen_eq, k.turns_eq.trans h.turns_eq⟩

/-- No row of the table touches OPR, AR, the parameters, the host's side or the turns. -/
theorem TableRow.sameOutside {s t : State} (h : TableRow s t) : SameOutside s t := by
  cases h with
  | ok hc hr ha => cases hr <;> exact ⟨rfl, rfl, rfl, rfl, rfl, rfl⟩
  | _ => exact ⟨rfl, rfl, rfl, rfl, rfl, rfl⟩

theorem framerStep_sameOutside {s t : State} (h : framerStep s = .moved t) : SameOutside s t :=
  (tableRow_of_framerStep h).sameOutside

/-- Because OPR does not change, an operation's turn is a turn of the whole framer step. -/
theorem exec_eq_runTurn_framerStep (i : Instr) {s : State} (h : s.busy = false) :
    exec i s = runTurn framerStep (accept i.sel i.arg s) := by
  rw [exec_of_idle i h]
  refine runRows_congr (P := fun u => u.opr = i.sel) (fun u t hu ht => ?_) (fun u hu => ?_) _ rfl
  · rw [← hu] at ht
    rw [(framerStep_sameOutside ht).opr_eq, hu]
  · rw [framerStep, hu]

/-- An operation of which no turn ends the step: its steps to the completion or a wait. -/
theorem exec_of_no_turns (i : Instr) {s : State} (h : s.busy = false) (ht : s.turns = []) :
    exec i s = runRows framerStep maxFramerSteps (accept i.sel i.arg s) := by
  rw [exec_eq_runTurn_framerStep i h, runTurn_nil (by simpa using ht)]

/-- What every framer step keeps and acceptance establishes, holds after a meaning from an idle framer. -/
theorem exec_keeps {P : State → Prop} (i : Instr) {s t : State} (hb : s.busy = false)
    (hacc : P { accept i.sel i.arg s with turns := s.turns.tail })
    (hrow : ∀ u v, u.busy = true → P u → TableRow u v → P v) (h : exec i s = .next t) : P t := by
  rw [exec_eq_runTurn_framerStep i hb, runTurn] at h
  exact runRows_keeps (fun u v hu hPu huv => hrow u v hu hPu (tableRow_of_framerStep huv))
    _ (s := { accept i.sel i.arg s with turns := s.turns.tail }) rfl hacc h

end Sys2Proof.Machine
end

