-- ==== Sys2Proof/Laws/PerInstr.lean ====
section
/-!
SUPPORT. The command word of an operation, per instruction: the encoder puts the selector in CMD[34:32]
and the operand, ignored bits included, in CMD[31:0] (spec/30_encoding.md R60), and every instruction is
well formed (R68).
-/

namespace Sys2Proof.Laws

/-- A selector above an operand is read back as the two fields. -/
theorem fields_of_append (k : Selector) (a : Word) :
    cmdSel (k ++ a) = k ∧ cmdArg (k ++ a) = a := by
  constructor
  · apply BitVec.eq_of_getLsbD_eq
    intro n hn
    simp only [cmdSel, BitVec.getLsbD_extractLsb', BitVec.getLsbD_append, hn, decide_true,
      Bool.true_and]
    simp
  · apply BitVec.eq_of_getLsbD_eq
    intro n hn
    simp only [cmdArg, BitVec.getLsbD_extractLsb', BitVec.getLsbD_append, hn, decide_true,
      Bool.true_and, Nat.zero_add, if_true]

end Sys2Proof.Laws

namespace Sys2Proof.Laws.CommandFields

/-- The two fields of the command word of `i`, and its well-formedness. -/
def Statement (i : Instr) : Prop :=
  cmdSel (encode i) = i.sel ∧ cmdArg (encode i) = i.arg ∧ i.wf = true

theorem issueCmd (ign : BitVec 24) (opb : Byte) : Statement (.issueCmd ign opb) :=
  ⟨(fields_of_append _ _).1, (fields_of_append _ _).2, rfl⟩

theorem readStatus (ign : Word) : Statement (.readStatus ign) :=
  ⟨(fields_of_append _ _).1, (fields_of_append _ _).2, rfl⟩

theorem enterUdpd (ign : Word) : Statement (.enterUdpd ign) :=
  ⟨(fields_of_append _ _).1, (fields_of_append _ _).2, rfl⟩

theorem exitSleep (ign : Word) : Statement (.exitSleep ign) :=
  ⟨(fields_of_append _ _).1, (fields_of_append _ _).2, rfl⟩

theorem readPage (ign : Byte) (addr : FlashAddr) : Statement (.readPage ign addr) :=
  ⟨(fields_of_append _ _).1, (fields_of_append _ _).2, rfl⟩

theorem writePage (ign : Byte) (addr : FlashAddr) : Statement (.writePage ign addr) :=
  ⟨(fields_of_append _ _).1, (fields_of_append _ _).2, rfl⟩

theorem erasePage (ign : Byte) (addr : FlashAddr) : Statement (.erasePage ign addr) :=
  ⟨(fields_of_append _ _).1, (fields_of_append _ _).2, rfl⟩

theorem discoverSize (ign : Word) : Statement (.discoverSize ign) :=
  ⟨(fields_of_append _ _).1, (fields_of_append _ _).2, rfl⟩

end Sys2Proof.Laws.CommandFields
end

