-- ==== Sys2Proof/Laws/Step.lean ====
section
/-!
SUPPORT. What one step of the machine is, by the agent whose turn it is and by the host's step.
-/

namespace Sys2Proof.Machine

theorem step_of_busy {s : State} (h : s.busy = true) : step s = busyTurn s := by simp [step, h]

theorem step_of_idle {s : State} (h : s.busy = false) : step s = hostTurn s := by simp [step, h]

/-- A framer that can move and whose turn it is has it. -/
theorem busyTurn_of_moved {s t : State} (h : framerStep s = .moved t) (hn : s.turns.head? ≠ some 0) :
    busyTurn s = runTurn framerStep s := by
  rw [busyTurn, h]
  match hs : s.turns, hn with
  | [], _ => rfl
  | (_ + 1) :: _, _ => rfl
  | 0 :: _, hn => exact absurd rfl hn

/-- A framer that can move leaves the turn to the host where the next entry is 0. -/
theorem busyTurn_of_zero {s t : State} {ts : List Nat} (h : framerStep s = .moved t)
    (hn : s.turns = 0 :: ts) : busyTurn s = hostTurnBusy { s with turns := ts } := by
  simp [busyTurn, h, hn]

/-- A framer that waits leaves the turn to the host. -/
theorem busyTurn_of_waiting {s : State} (h : framerStep s = .waiting) :
    busyTurn s = hostTurnBusy s := by simp [busyTurn, h]

theorem popHost_of_cons {s : State} {a : HostStep} {rest : List HostStep} (h : s.host = a :: rest) :
    popHost s = { s with host := rest } := by simp [popHost, h]

/-- What the reset leaves (R34), field by field. -/
theorem resetFramer_eq (s : State) :
    resetFramer s = { State.reset with cfg := s.cfg, answers := s.answers, host := s.host,
                                       seen := s.seen, draws := s.draws, turns := s.turns } := rfl

/-- Everything the host's turn can be while BUSY = 0. -/
theorem hostTurn_cases (s : State) :
    (s.host = [] ∧ hostTurn s = .next s) ∨
    ∃ a rest, s.host = a :: rest ∧
      ((∃ w, a = .issue w ∧ hostTurn s = exec (decode w) { s with host := rest }) ∨
       (∃ i, a = .hostRead i ∧ hostTurn s = .next (hostReadBuf i { s with host := rest })) ∨
       (∃ i v, a = .hostWrite i v ∧ hostTurn s = .next (hostWriteBuf i v { s with host := rest })) ∨
       (a = .readResult ∧ hostTurn s = .next (hostReadResult { s with host := rest })) ∨
       (a = .reset ∧ hostTurn s = .next (resetFramer { s with host := rest }))) := by
  cases h : s.host with
  | nil => exact .inl ⟨rfl, by simp [hostTurn, h]⟩
  | cons a rest =>
    refine .inr ⟨a, rest, rfl, ?_⟩
    cases a <;> simp [hostTurn, h, popHost]

/-- Everything the host's turn can be while BUSY = 1. -/
theorem hostTurnBusy_cases (s : State) :
    hostTurnBusy s = .next s ∨
    (∃ rest, s.host = .readResult :: rest ∧
      hostTurnBusy s = .next (hostReadResult { s with host := rest })) ∨
    (∃ rest, s.host = .reset :: rest ∧
      hostTurnBusy s = .next (resetFramer { s with host := rest })) := by
  cases h : s.host with
  | nil => exact .inl (by simp [hostTurnBusy, h])
  | cons a rest => cases a <;> simp [hostTurnBusy, h, popHost]

/-- A read of the result registers changes what the host has seen and the count of draws. -/
theorem hostReadResult_eq (s : State) :
    ∃ v d, hostReadResult s = { s with seen := s.seen ++ [v], draws := d } := by
  unfold hostReadResult
  split
  · exact ⟨_, s.draws, rfl⟩
  · exact ⟨_, _, rfl⟩

/-- A host read of BUF changes what the host has seen and the count of draws. -/
theorem hostReadBuf_eq (i : Byte) (s : State) :
    ∃ v d, hostReadBuf i s = { s with seen := s.seen ++ [v], draws := d } := by
  refine ⟨.bufByte i (bufRead i.toNat s).1,
    s.draws + if (Memory.read s.buf i.toNat).isNone then 1 else 0, ?_⟩
  simp only [hostReadBuf, returnToHost]
  rw [bufRead_snd]

end Sys2Proof.Machine
end

