-- ==== Sys2Proof/Tests/Slice0.lean ====
section
/-!
SUPPORT. The model's own tests. Expected values come from spec/95_test_vectors.md and from the rules named
in the comments; the opcode bytes of its section 5 serve as an example configuration only. Below them, for
each statement with hypotheses, a named witness that meets them.
-/

namespace Sys2Proof.Tests

open Sys2Proof Sys2Proof.Machine

/-! ### Helpers -/

/-- The example configuration of spec/95_test_vectors.md section 5, with a transport that can fault. -/
def cfgEx : Config where
  opRead := 0x03
  opPp := 0x02
  opPe := 0x81
  opRdsr := 0x05
  opSfdp := 0x5A
  opUdpd := 0x79
  opRdp := 0xAB
  dummyByte := 0x00
  wakeSpinCount := 3
  tCanFault := true
  csActiveLevel := false

/-- An idle framer, its registers all zero, before these answers of the transport. -/
def idleEx (answers : List Answer) : State where
  busy := false
  opr := 0
  ar := 0
  ph := .idle
  ix := 0
  buf := []
  resValid := false
  resCode := 0
  resVal := 0
  flt := false
  cs := false
  h := 0
  acc := 0
  sr := 0
  wcnt := 0
  wire := []
  cfg := cfgEx
  answers := answers
  host := []
  seen := []
  draws := 0
  turns := []

/-- An operation in progress at a position inside its select window, before these answers. -/
def midEx (opr : Selector) (ph : Phase) (ix : Index) (answers : List Answer) : State :=
  { idleEx answers with busy := true, opr := opr, ph := ph, ix := ix, cs := true, wire := [.csA] }

/-- The same parameters with a transport that cannot fault. -/
def noFaultEx (s : State) : State := { s with cfg := { s.cfg with tCanFault := false } }

/-- The next state, if that is the outcome. -/
def nextOf : Outcome → Option State
  | .next s => some s
  | .fault _ => none
  | .refused _ => none

/-- The result registers and BUSY after an operation. -/
def resultOf (o : Outcome) : Option (Bool × Bool × BitVec 2 × Word) :=
  (nextOf o).map fun t => (t.busy, t.resValid, t.resCode, t.resVal)

/-- The wire history after an operation. -/
def wireOf (o : Outcome) : Option (List WireEvent) := (nextOf o).map (·.wire)

/-- The state a framer step moves to. -/
def movedTo : FramerMove → Option State
  | .moved t => some t
  | .waiting => none
  | .noRow => none

/-! ### Well-formedness and decoding (spec/95_test_vectors.md section 3.1) -/

/-- The first number that does not fit CMD_W = 35 bits is refused. -/
theorem test_wf_refuses_wide : isCommandWord 0x800000000 = false := by decide

/-- The largest command word is accepted. -/
theorem test_wf_accepts_largest : isCommandWord 0x7FFFFFFFF = true := by decide

/-- The decoder refuses a number wider than the port by name. -/
theorem test_decode_refuses_wide : decodeNat 0x800000000 = .error .widerThanCommandPort := by rfl

/-- 0x0ABCDEF79: SEL 0, ARG[31:8] = 0xABCDEF, OPB = 0x79. -/
theorem test_decode_issueCmd :
    decode 0b000_10101011110011011110111101111001#35 = .issueCmd 0xABCDEF 0x79 := by decide

/-- 0x1FFFFFFFF: SEL 1, every bit of ARG ignored. -/
theorem test_decode_readStatus :
    decode 0b001_11111111111111111111111111111111#35 = .readStatus 0xFFFFFFFF := by decide

/-- 0x200000000: SEL 2. -/
theorem test_decode_enterUdpd :
    decode 0b010_00000000000000000000000000000000#35 = .enterUdpd 0 := by decide

/-- 0x300000000: SEL 3. -/
theorem test_decode_exitSleep :
    decode 0b011_00000000000000000000000000000000#35 = .exitSleep 0 := by decide

/-- 0x4FF123456: SEL 4, ARG[31:24] = 0xFF, ADDR = 0x123456. -/
theorem test_decode_readPage :
    decode 0b100_11111111000100100011010001010110#35 = .readPage 0xFF 0x123456 := by decide

/-- 0x500001000: SEL 5, ADDR = 0x001000. -/
theorem test_decode_writePage :
    decode 0b101_00000000000000000001000000000000#35 = .writePage 0 0x001000 := by decide

/-- 0x600001000: SEL 6, ADDR = 0x001000. -/
theorem test_decode_erasePage :
    decode 0b110_00000000000000000001000000000000#35 = .erasePage 0 0x001000 := by decide

/-- 0x7DEADBEEF: SEL 7, every bit of ARG ignored. -/
theorem test_decode_discoverSize :
    decode 0b111_11011110101011011011111011101111#35 = .discoverSize 0xDEADBEEF := by decide

/-- The same words from the opcode table's numbering. -/
theorem test_decodeTableWord :
    decodeTableWord 35 0x4FF123456 = some (.readPage 0xFF 0x123456) ∧
    decodeTableWord 40 0x600001000 = some (.erasePage 0 0x001000) := by decide

/-! ### ISSUE_CMD (section 3.3) -/

/-- Row "plain". -/
theorem test_issueCmd_wire :
    wireOf (exec (.issueCmd 0 0x06) (idleEx [.ok 0x11])) = some [.csA, .x 0x06 0x11, .csD] ∧
    resultOf (exec (.issueCmd 0 0x06) (idleEx [.ok 0x11])) = some (false, true, 0, 0) := by decide

/-- Row "fault at the only exchange". -/
theorem test_issueCmd_fault :
    wireOf (exec (.issueCmd 0 0x06) (idleEx [.fault])) = some [.csA, .xf 0x06, .csD] ∧
    resultOf (exec (.issueCmd 0 0x06) (idleEx [.fault])) = some (false, true, 1, 0) := by decide

/-! ### READ_STATUS, ENTER_UDPD, EXIT_SLEEP (section 3.4) -/

/-- Row "status 0xFF": zero-extended, the first returned byte discarded. -/
theorem test_readStatus_zext :
    wireOf (exec (.readStatus 0) (idleEx [.ok 0x01, .ok 0xFF])) =
      some [.csA, .x 0x05 0x01, .x 0x00 0xFF, .csD] ∧
    resultOf (exec (.readStatus 0) (idleEx [.ok 0x01, .ok 0xFF])) = some (false, true, 0, 0x000000FF) := by
  decide

/-- Row "fault at exchange 1": SR not written. -/
theorem test_readStatus_fault :
    wireOf (exec (.readStatus 0) (idleEx [.ok 0x01, .fault])) =
      some [.csA, .x 0x05 0x01, .xf 0x00, .csD] ∧
    (nextOf (exec (.readStatus 0) (idleEx [.ok 0x01, .fault]))).map (·.sr) = some 0 := by decide

/-- Row "ENTER_UDPD". -/
theorem test_enterUdpd_wire :
    wireOf (exec (.enterUdpd 0) (idleEx [.ok 0x11])) = some [.csA, .x 0x79 0x11, .csD] := by decide

/-- Row "EXIT_SLEEP": the spin comes after the deselect. -/
theorem test_exitSleep_wire :
    wireOf (exec (.exitSleep 0) (idleEx [.ok 0x11])) = some [.csA, .x 0xAB 0x11, .csD, .spin 3] := by
  decide

/-- Row "EXIT_SLEEP, fault": no spin. -/
theorem test_exitSleep_fault :
    wireOf (exec (.exitSleep 0) (idleEx [.fault])) = some [.csA, .xf 0xAB, .csD] ∧
    resultOf (exec (.exitSleep 0) (idleEx [.fault])) = some (false, true, 1, 0) := by decide

/-! ### The page operations (sections 3.2 and 3.5) -/

/-- Row "READ_PAGE, fault at exchange 2" with ADDR 0x123456: most significant byte first. -/
theorem test_readPage_fault_in_address :
    wireOf (exec (.readPage 0xFF 0x123456) (idleEx [.ok 1, .ok 2, .fault])) =
      some [.csA, .x 0x03 1, .x 0x12 2, .xf 0x34, .csD] := by decide

/-- The last data exchange of READ_PAGE goes to BUF[255] and ends the operation (R85, R101). -/
theorem test_readPage_last_byte :
    (nextOf (resume (midEx 4 .data 255 [.ok 0x5A]))).map (fun t => (t.buf, t.busy, t.resCode)) =
      some ([(255, 0x5A)], false, 0) := by decide

/-- Row "WRITE_PAGE, fault at exchange 5": BUF[0] is sent, BUF[1] is the byte of the fault. -/
theorem test_writePage_fault :
    wireOf (exec (.writePage 0 0x001000)
      { idleEx [.ok 1, .ok 2, .ok 3, .ok 4, .ok 5, .fault] with buf := [(0, 0x00), (1, 0x01)] }) =
      some [.csA, .x 0x02 1, .x 0x00 2, .x 0x10 3, .x 0x00 4, .x 0x00 5, .xf 0x01, .csD] := by decide

/-- The last data exchange of WRITE_PAGE sends BUF[255] (R85, R102). -/
theorem test_writePage_last_byte :
    wireOf (resume { midEx 5 .data 255 [.ok 9] with buf := [(254, 0xFE), (255, 0xFF)] }) =
      some [.csA, .x 0xFF 9, .csD] := by decide

/-- Row "ERASE_PAGE, unaligned address": low bits sent as they are. -/
theorem test_erasePage_unaligned :
    wireOf (exec (.erasePage 0 0x0010AB) (idleEx [.ok 1, .ok 2, .ok 3, .ok 4])) =
      some [.csA, .x 0x81 1, .x 0x00 2, .x 0x10 3, .x 0xAB 4, .csD] := by decide

/-! ### DISCOVER_SIZE (section 3.6) -/

/-- The answers of run A of P3: H = 0, size field FF FF 3F 00. -/
def runA : List Answer :=
  okAnswers [0xFF, 0xA0, 0xA1, 0xA2, 0xA3, 0xA4, 0xA5, 0xA6, 0xA7, 0xA8, 0xA9, 0x00, 0xEE,
    0xB0, 0xB1, 0xB2, 0xB3, 0xFF, 0xFF, 0x3F, 0x00]

/-- P3, run A: RES_VAL = 0x200 and H = 0. -/
theorem test_discoverSize_runA :
    resultOf (exec (.discoverSize 0) (idleEx runA)) = some (false, true, 0, 0x200) ∧
    (nextOf (exec (.discoverSize 0) (idleEx runA))).map (fun t => (t.h, t.acc, t.answers)) =
      some (0x00, 0x00400000, []) := by decide

/-- Row "fault at exchange 11", the byte that would set H: no skip and no size. -/
theorem test_discoverSize_header_fault :
    resultOf (exec (.discoverSize 0) (idleEx (runA.take 11 ++ [.fault]))) = some (false, true, 1, 0) := by
  decide

/-- The skip counts of the first table of section 3.6; 0x20 does not wrap at 8 bits. -/
theorem test_skipCount :
    [0x00, 0x01, 0x02, 0x10, 0x1F, 0x20, 0x80, 0xFF].map (fun h => (skipCount h).toNat) =
      [4, 12, 20, 132, 252, 260, 1028, 2044] := by decide

/-- ACC after each size byte, row "78 56 34 12". -/
theorem test_accStep_order :
    accStep 0 0x78 = 0x78000000 ∧ accStep 0x78000000 0x56 = 0x56780000 ∧
    accStep 0x56780000 0x34 = 0x34567800 ∧ accStep 0x34567800 0x12 = 0x12345678 := by decide

/-- The results of the second table of section 3.6, the wrap among them. -/
theorem test_size_results :
    [0x003FFFFF, 0x12345678, 0x00001FFE, 0x00001FFF, 0x7FFFFFFF, 0xFFFFFFFE, 0xFFFFFFFF].map
      (fun n => sizeResult (accInc n)) = [0x200, 0x91A2, 0, 1, 0x40000, 0x7FFFF, 0] := by decide

/-! ### Acceptance, the host's steps and reset (section 3.7) -/

/-- Row "`issue` at BUSY = 0": acceptance causes no wire event; with no answer the framer waits selected. -/
theorem test_issue_accepts :
    (nextOf (step ((idleEx []).withFetchWord 35 0x100000000))).map
      (fun t => (t.busy, t.opr, t.ph, t.cs, t.wire)) = some (true, 1, .opc, true, [.csA]) := by decide

/-- The same row with the turn 0: acceptance alone is the step, (PH, IX) = (SELECT, 0), no wire event. -/
theorem test_issue_accepts_alone :
    (nextOf (step { (idleEx [.ok 1]).withFetchWord 35 0x100000000 with turns := [0] })).map
      (fun t => (t.busy, t.ph, t.ix, t.wire, t.turns)) = some (true, .select, 0, [], []) := by decide

/-- R84: with the turn 1 the framer makes one exchange and stands at the next position. -/
theorem test_one_framer_step :
    (nextOf (step { midEx 4 .addr 1 [.ok 7, .ok 8] with turns := [1], ar := 0x123456 })).map
      (fun t => (t.ph, t.ix, t.wire, t.answers)) =
      some (.addr, 2, [.csA, .x 0x34 7], [.ok 8]) := by decide

/-- The host reads BUSY = 1 in the middle of an operation whose next exchange will be answered. -/
theorem test_read_busy_mid_operation :
    (nextOf (step { midEx 1 .data 0 [.ok 7] with turns := [0], host := [.readResult] })).map
      (fun t => (t.draws, t.busy, t.ph, t.answers)) = some (1, true, .data, [.ok 7]) := by rfl

/-- A reset before the spin of EXIT_SLEEP abandons it: no Spin event, no completion (R151). -/
theorem test_reset_before_spin :
    (nextOf (step { midEx 3 .wake 0 [] with cs := false, wire := [.csA, .x 0xAB 1, .csD], turns := [0],
                                            host := [.reset] })).map
      (fun t => (t.busy, t.resValid, t.wire)) = some (false, false, []) := by rfl

/-- From reset the placed command runs at the very next step (log entry 13). -/
theorem test_reset_runs_placed :
    (nextOf (step (State.reset.withFetchWord 40 0x4FF123456))).map
      (fun t => (t.busy, t.opr, t.ar, t.wire)) = some (true, 4, 0xFF123456, [.csA]) := by decide

/-- Row "`hostWrite` at BUSY = 1": no such step. -/
theorem test_hostWrite_busy :
    (nextOf (step { midEx 1 .opc 0 [] with host := [.hostWrite 3 9] })).map (fun t => (t.buf, t.host)) =
      some ([], [.hostWrite 3 9]) := by decide

/-- `hostWrite(3, 9)` then `hostRead(3)` returns 9 (R20). -/
theorem test_hostWrite_then_read :
    (nextOf (step { idleEx [] with buf := [(3, 9)], host := [.hostRead 3] })).map (·.seen) =
      some [.bufByte 3 9] ∧
    (nextOf (step { idleEx [] with host := [.hostWrite 3 9] })).map (·.buf) = some [(3, 9)] := by decide

/-- Row "host reads RES_VAL straight after reset": some draw, and the draw is counted (R35). -/
theorem test_read_result_before_completion :
    (nextOf (step { idleEx [] with host := [.readResult] })).map (·.draws) = some 1 := by rfl

/-- A reset that abandons an operation deselects the device (R150, R151). -/
theorem test_reset_mid_operation :
    (nextOf (step { midEx 4 .data 7 [] with host := [.reset], buf := [(0, 1)] })).map
      (fun t => (t.busy, t.cs, t.ph, t.buf, t.wire)) = some (false, false, .idle, [], []) := by rfl

/-! ### Witnesses: for each statement with hypotheses, states and operands that meet them

A witness named after a statement meets that statement's hypotheses, one conjunct or one theorem a clause.
-/

/-- An outcome of which a field of the next state is known is a next state. -/
theorem next_of {α : Type} {o : Outcome} {f : State → α} {v : α} (h : (nextOf o).map f = some v) :
    ∃ t, o = .next t ∧ f t = v := by
  cases o with
  | next t => exact ⟨t, rfl, Option.some.inj h⟩
  | fault r => cases h
  | refused r => cases h

/-- A framer step of which a field of the state it moves to is known is taken. -/
theorem moved_of {α : Type} {m : FramerMove} {f : State → α} {v : α} (h : (movedTo m).map f = some v) :
    ∃ t, m = .moved t ∧ f t = v := by
  cases m with
  | moved t => exact ⟨t, rfl, Option.some.inj h⟩
  | waiting => cases h
  | noRow => cases h

/-- An idle framer whose host has these steps left. -/
def hostEx (host : List HostStep) : State := { idleEx [] with host := host }

/-- READ_STATUS waiting at its first exchange, the host with these steps left. -/
def waitEx (host : List HostStep) : State := { midEx 1 .opc 0 [] with host := host }

/-- A page, every byte 0xEE. -/
def pageData : List Byte := List.replicate 256 0xEE

theorem pageData_length : pageData.length = 256 := List.length_replicate

/-- 260 answered exchanges. -/
def pageAnswers : List Answer := okAnswers (List.replicate 260 0xEE)

/-- An idle framer whose page buffer is written, BUF[k] = k. -/
def fullEx : State :=
  { idleEx [] with buf := (List.range 256).map fun k => (k, BitVec.ofNat 8 k) }

theorem witness_SelectorNamesOperation :
    (0x000000006#35).extractLsb' 32 3 = 0#3 ∧ (0x1FFFFFFFF#35).extractLsb' 32 3 = 1#3 ∧
    (0x200000000#35).extractLsb' 32 3 = 2#3 ∧ (0x300000000#35).extractLsb' 32 3 = 3#3 ∧
    (0x4FF123456#35).extractLsb' 32 3 = 4#3 ∧ (0x500001000#35).extractLsb' 32 3 = 5#3 ∧
    (0x600001000#35).extractLsb' 32 3 = 6#3 ∧ (0x7DEADBEEF#35).extractLsb' 32 3 = 7#3 := by decide

theorem witness_OpByteBySelector :
    (midEx 7 .opc 0 [.ok 1]).ph = .opc ∧ (midEx 7 .opc 0 [.ok 1]).ix = 0 ∧
    (midEx 7 .opc 0 [.ok 1]).cs = true ∧ (midEx 7 .opc 0 [.ok 1]).answers = .ok 1 :: [] := by decide

theorem witness_SizeIncrementWraps :
    (midEx 7 .size 3 [.ok 0xFF]).opr = 7#3 ∧ (midEx 7 .size 3 [.ok 0xFF]).ph = .size ∧
    (midEx 7 .size 3 [.ok 0xFF]).ix = 3 ∧ (midEx 7 .size 3 [.ok 0xFF]).cs = true ∧
    (midEx 7 .size 3 [.ok 0xFF]).answers = .ok 0xFF :: [] := by decide

theorem witness_SizeResultIsFloor :
    (midEx 7 .deselect 0 []).opr = 7#3 ∧ (midEx 7 .deselect 0 []).ph = .deselect ∧
    (midEx 7 .deselect 0 []).ix = 0 ∧ (midEx 7 .deselect 0 []).flt = false := by decide

theorem witness_TransitionTable_ok : ∃ t, framerStep (midEx 4 .data 255 [.ok 9]) = .moved t ∧
    (t.ph, t.buf) = (.deselect, [(255, 9)]) := moved_of (by decide)

theorem witness_TransitionTable_fault : ∃ t, framerStep (midEx 7 .skip 3 [.fault]) = .moved t ∧
    (t.ph, t.flt) = (.deselect, true) := moved_of (by decide)

theorem witness_TransitionTable_deselect : ∃ t, framerStep (midEx 3 .deselect 0 []) = .moved t ∧
    (t.ph, t.wcnt, t.busy) = (.wake, 3, true) := moved_of (by decide)

theorem witness_FramerStepOneEvent : ∃ t, framerStep (midEx 5 .addr 2 [.ok 9]) = .moved t ∧
    t.ph = .data := moved_of (by decide)

/-- OPR 0 meets every premise of the statement on OPR, and the step stays in the operation. -/
theorem witness_RegisterWriters : ∃ t, framerStep (midEx 0 .opc 0 [.ok 9]) = .moved t ∧
    ((midEx 0 .opc 0 [.ok 9]).busy, t.busy) = (true, true) := by
  obtain ⟨t, h, hb⟩ := moved_of (m := framerStep (midEx 0 .opc 0 [.ok 9])) (f := State.busy)
    (v := true) (by decide)
  exact ⟨t, h, by rw [hb]; rfl⟩

theorem midEx_page_inv (answers : List Answer) : (midEx 4 .data 255 answers).Inv := by
  constructor <;> simp [midEx, idleEx, Memory.wf, Memory.wfFrom, Phase.selected, State.listed,
    windowOf, windowFrom, windowAfter]

theorem midEx_skip_inv (answers : List Answer) : (midEx 7 .skip 3 answers).Inv := by
  constructor <;> simp [midEx, idleEx, Memory.wf, Memory.wfFrom, Phase.selected, State.listed,
    windowOf, windowFrom, windowAfter, skipCount, sfdpSkipShift, sfdpSkipBias]

theorem idleEx_inv (answers : List Answer) : (idleEx answers).Inv := by
  constructor <;> simp [idleEx, Memory.wf, Memory.wfFrom, Phase.selected, windowOf, windowFrom]

theorem witness_FramerStepKeepsInvariant : (midEx 7 .skip 3 [.ok 9]).busy = true ∧
    (midEx 7 .skip 3 [.ok 9]).Inv ∧
    ∃ t, framerStep (midEx 7 .skip 3 [.ok 9]) = .moved t ∧ t.ph = .size :=
  ⟨rfl, midEx_skip_inv _, moved_of (by decide)⟩

/-- With the turn 0 at the head, and while BUSY = 1. -/
theorem witness_AcceptanceLatchesCommand :
    (({ hostEx [.issue 0x100000000] with turns := [0] } : State).busy = false ∧
      ({ hostEx [.issue 0x100000000] with turns := [0] } : State).host = .issue 0x100000000 :: [] ∧
      ({ hostEx [.issue 0x100000000] with turns := [0] } : State).turns = 0 :: []) ∧
    ((waitEx [.issue 0x000000006]).busy = true ∧
      ∃ t, step (waitEx [.issue 0x000000006]) = .next t ∧ t.opr = 1#3) :=
  ⟨by decide, by decide, next_of (by decide)⟩

theorem witness_StepRunsDecodedCommand :
    (hostEx [.issue 0x7DEADBEEF]).busy = false ∧
    (hostEx [.issue 0x7DEADBEEF]).host = .issue 0x7DEADBEEF :: [] := by decide

theorem witness_PlacedCommandRuns : decodeTableWord 35 0x600001000 = some (.erasePage 0 0x001000) := by
  decide

/-- READ_STATUS before an exchange that will be answered, with these turns and these steps of the host. -/
def turnEx (turns : List Nat) (host : List HostStep) : State :=
  { midEx 1 .opc 0 [.ok 9] with turns := turns, host := host }

/-- A framer that can move, with no turn left, a turn of its own, and a turn of the host, which reads,
resets, or has no step to take. -/
theorem witness_BusyStepIsTheFramers_moves :
    (∃ t, framerStep (turnEx [] []) = .moved t ∧ t.ph = .data) ∧
    (∃ t, framerStep (turnEx [2] []) = .moved t ∧ t.ph = .data) ∧
    (∃ t, framerStep (turnEx [0] [.readResult]) = .moved t ∧ t.ph = .data) ∧
    (∃ t, framerStep (turnEx [0] [.reset]) = .moved t ∧ t.ph = .data) ∧
    (∃ t, framerStep (turnEx [0] [.issue 0]) = .moved t ∧ t.ph = .data) ∧
    (turnEx [0] [.issue 0]).busy = true :=
  ⟨moved_of (by decide), moved_of (by decide), moved_of (by decide), moved_of (by decide),
    moved_of (by decide), rfl⟩

theorem witness_SingleFramerStep :
    ({ midEx 4 .data 255 [.ok 9] with turns := [1] } : State).busy = true ∧
    ({ midEx 4 .data 255 [.ok 9] with turns := [1] } : State).turns = 1 :: [] ∧
    ∃ t, framerStep { midEx 4 .data 255 [.ok 9] with turns := [1] } = .moved t ∧ t.ph = .deselect :=
  ⟨rfl, rfl, moved_of (by decide)⟩

/-- A turn of exactly the three steps of ENTER_UDPD, and one cut after one of them. -/
theorem witness_TurnsOnlyCut : (idleEx [.ok 1]).busy = false ∧
    (∃ t, exec (.enterUdpd 0) { idleEx [.ok 1] with turns := [] } = .next t ∧
      t.wire.length = (idleEx [.ok 1]).wire.length + 3) ∧
    (∃ t, exec (.enterUdpd 0) { idleEx [.ok 1] with turns := [1, 2] } = .next t ∧
      (t.busy, t.ph, t.cs, t.answers) = (true, .opc, true, [.ok 1])) :=
  ⟨rfl, next_of (by decide), next_of (by decide)⟩

/-- The three cases of a waiting framer: the host reads the results, resets, or offers a command. -/
theorem witness_BusyStepIsTheFramers_waits :
    (framerStep (waitEx [.readResult]) = .waiting ∧ (waitEx [.readResult]).busy = true) ∧
    (framerStep (waitEx [.reset]) = .waiting ∧ (waitEx [.reset]).busy = true) ∧
    (framerStep (waitEx [.issue 0]) = .waiting ∧ (waitEx [.issue 0]).busy = true) := by decide

theorem witness_IssueCmdCompletes :
    (idleEx [.ok 1]).busy = false ∧ (idleEx [.ok 1]).turns = [] ∧ (idleEx [.ok 1]).answers = .ok 1 :: [] := by decide

theorem witness_ReadStatusCompletes :
    (idleEx [.ok 1, .ok 2]).busy = false ∧ (idleEx [.ok 1, .ok 2]).turns = [] ∧ (idleEx [.ok 1, .ok 2]).answers = .ok 1 :: .ok 2 :: [] := by
  decide

theorem witness_EnterUdpdCompletes :
    (idleEx [.ok 1]).busy = false ∧ (idleEx [.ok 1]).turns = [] ∧ (idleEx [.ok 1]).answers = .ok 1 :: [] := by decide

theorem witness_ExitSleepCompletes :
    (idleEx [.ok 1]).busy = false ∧ (idleEx [.ok 1]).turns = [] ∧ (idleEx [.ok 1]).answers = .ok 1 :: [] := by decide

theorem witness_ReadPageCompletes :
    (idleEx (okAnswers (1 :: 2 :: 3 :: 4 :: pageData))).busy = false ∧
    (idleEx (okAnswers (1 :: 2 :: 3 :: 4 :: pageData))).turns = [] ∧ pageData.length = 256 ∧
    (idleEx (okAnswers (1 :: 2 :: 3 :: 4 :: pageData))).answers =
      okAnswers (1 :: 2 :: 3 :: 4 :: pageData) ++ [] :=
  ⟨rfl, rfl, pageData_length, (List.append_nil _).symm⟩

theorem witness_WritePageCompletes :
    (idleEx (okAnswers (1 :: 2 :: 3 :: 4 :: pageData))).busy = false ∧
    (idleEx (okAnswers (1 :: 2 :: 3 :: 4 :: pageData))).turns = [] ∧
    (1 :: 2 :: 3 :: 4 :: pageData).length = 260 ∧
    (idleEx (okAnswers (1 :: 2 :: 3 :: 4 :: pageData))).answers =
      okAnswers (1 :: 2 :: 3 :: 4 :: pageData) ++ [] :=
  ⟨rfl, rfl, by simp only [List.length_cons, pageData_length], (List.append_nil _).symm⟩

theorem witness_ErasePageCompletes :
    (idleEx [.ok 1, .ok 2, .ok 3, .ok 4]).busy = false ∧ (idleEx [.ok 1, .ok 2, .ok 3, .ok 4]).turns = [] ∧
    (idleEx [.ok 1, .ok 2, .ok 3, .ok 4]).answers = .ok 1 :: .ok 2 :: .ok 3 :: .ok 4 :: [] := by decide

/-- The shortest walk, H = 0, and the longest, H = 0xFF. -/
theorem witness_DiscoverSizeCompletes :
    ((List.replicate 4 (0xB0 : Byte)).length = 8 * (0x00 : Byte).toNat + 4 ∧
      (idleEx runA).busy = false ∧ (idleEx runA).turns = [] ∧
      (idleEx runA).answers =
        okAnswers (0xFF :: [0xA0, 0xA1, 0xA2, 0xA3, 0xA4, 0xA5, 0xA6, 0xA7, 0xA8, 0xA9] ++
          0x00 :: 0xEE :: [0xB0, 0xB1, 0xB2, 0xB3] ++ [0xFF, 0xFF, 0x3F, 0x00]) ++ []) ∧
    (List.replicate 2044 (0xCC : Byte)).length = 8 * (0xFF : Byte).toNat + 4 := by
  refine ⟨⟨rfl, rfl, rfl, rfl⟩, ?_⟩
  rw [List.length_replicate]
  rfl

theorem witness_OperationPutsFrameOnWire :
    (idleEx (okAnswers (List.replicate 21 0x00))).busy = false ∧
    (idleEx (okAnswers (List.replicate 21 0x00))).turns = [] ∧
    (List.replicate 21 (0x00 : Byte)).length =
      exchanges (.discoverSize 0) (List.replicate 21 0x00) ∧
    (idleEx (okAnswers (List.replicate 21 0x00))).answers =
      okAnswers (List.replicate 21 0x00) ++ [] := by decide

theorem witness_OneWindowPerOperation : (idleEx [.ok 1]).busy = false ∧
    ∃ t, exec (.exitSleep 0) (idleEx [.ok 1]) = .next t ∧ t.busy = false :=
  ⟨rfl, next_of (by decide)⟩

theorem witness_ExecCompletesOrWaits : (idleEx []).busy = false ∧ (idleEx [.ok 1]).busy = false ∧
    ({ idleEx [.ok 1] with turns := [2] } : State).busy = false := by decide

theorem witness_TransportFaultEntry :
    XferRow (midEx 1 .data 0 [.fault]) 0 0x00
      (fun rx t => { t with sr := rx, ph := .deselect, ix := 0 }) ∧
    (midEx 1 .data 0 [.fault]).cs = true ∧ (midEx 1 .data 0 [.fault]).cfg.tCanFault = true ∧
    (midEx 1 .data 0 [.fault]).answers = .fault :: [] :=
  ⟨.dataStatus rfl rfl rfl, rfl, rfl, rfl⟩

/-- The same at a payload byte nothing has written, where the byte sent is a draw. -/
theorem witness_TransportFaultEntry_draw :
    XferRow (midEx 5 .data 255 [.fault]) 1 (Config.freeByte 0)
      (fun _ t => { t with ph := .deselect, ix := 0 }) ∧
    (midEx 5 .data 255 [.fault]).cs = true ∧ (midEx 5 .data 255 [.fault]).cfg.tCanFault = true ∧
    (midEx 5 .data 255 [.fault]).answers = .fault :: [] :=
  ⟨.dataWriteLastDraw rfl rfl rfl rfl, rfl, rfl, rfl⟩

/-- A fault at the first and at the last exchange of ERASE_PAGE. -/
theorem witness_FaultEndsOperation :
    ((idleEx [.fault]).busy = false ∧ (idleEx [.fault]).turns = [] ∧ (idleEx [.fault]).cfg.tCanFault = true ∧
      ([] : List Byte).length < exchanges (.erasePage 0 0) [] ∧
      (idleEx [.fault]).answers = okAnswers [] ++ .fault :: []) ∧
    (idleEx [.ok 1, .ok 2, .ok 3, .fault]).busy = false ∧
      (idleEx [.ok 1, .ok 2, .ok 3, .fault]).turns = [] ∧
      (idleEx [.ok 1, .ok 2, .ok 3, .fault]).cfg.tCanFault = true ∧
      ([1, 2, 3] : List Byte).length < exchanges (.erasePage 0 0) [1, 2, 3] ∧
      (idleEx [.ok 1, .ok 2, .ok 3, .fault]).answers = okAnswers [1, 2, 3] ++ .fault :: [] := by decide

/-- A fault at the last data exchange, where both clauses have an index, and one at the opcode. -/
theorem witness_FaultedReadKeepsTail :
    ((idleEx (okAnswers (1 :: 2 :: 3 :: pageData) ++ [.fault])).busy = false ∧
      (idleEx (okAnswers (1 :: 2 :: 3 :: pageData) ++ [.fault])).turns = [] ∧
      (idleEx (okAnswers (1 :: 2 :: 3 :: pageData) ++ [.fault])).cfg.tCanFault = true ∧
      (1 :: 2 :: 3 :: pageData).length < 260 ∧
      (idleEx (okAnswers (1 :: 2 :: 3 :: pageData) ++ [.fault])).answers =
        okAnswers (1 :: 2 :: 3 :: pageData) ++ .fault :: [] ∧
      254 + 4 < (1 :: 2 :: 3 :: pageData).length ∧ (1 :: 2 :: 3 :: pageData).length ≤ 255 + 4) ∧
    ([] : List Byte).length < 260 ∧ (idleEx [.fault]).answers = okAnswers [] ++ .fault :: [] := by
  simp only [List.length_cons, pageData_length]
  refine ⟨⟨rfl, rfl, rfl, by decide, rfl, by decide, by decide⟩, by decide, rfl⟩

theorem witness_NoFaultWithoutTCanFault :
    (noFaultEx (idleEx [.ok 1, .ok 2])).busy = false ∧
    (noFaultEx (idleEx [.ok 1, .ok 2])).cfg.tCanFault = false ∧
    ∃ t, exec (.readStatus 0) (noFaultEx (idleEx [.ok 1, .ok 2])) = .next t ∧ t.busy = false :=
  ⟨rfl, rfl, next_of (by decide)⟩

/-- The operation waits, completes, and faults. -/
theorem witness_CompletionCode :
    (∃ t, exec (.readStatus 0) (idleEx [.ok 1]) = .next t ∧ t.busy = true) ∧
    (∃ t, exec (.readStatus 0) (idleEx [.ok 1, .ok 2]) = .next t ∧ (t.busy, t.resCode) = (false, 0)) ∧
    (∃ t, exec (.readStatus 0) (idleEx [.ok 1, .fault]) = .next t ∧ (t.busy, t.resCode) = (false, 1)) :=
  ⟨next_of (by decide), next_of (by decide), next_of (by decide)⟩

/-- A wait, and a completion under each clause on the selector and the code. -/
theorem witness_ReturnedValue :
    (∃ t, exec (.discoverSize 0) (idleEx [.ok 1]) = .next t ∧ t.busy = true) ∧
    (∃ t, exec (.readStatus 0) (idleEx [.ok 1, .ok 2]) = .next t ∧ (t.busy, t.resCode) = (false, 0)) ∧
    (∃ t, exec (.discoverSize 0) (idleEx runA) = .next t ∧ (t.busy, t.resCode) = (false, 0)) ∧
    (∃ t, exec (.enterUdpd 0) (idleEx [.ok 1]) = .next t ∧ (t.busy, t.resCode) = (false, 0)) ∧
    (∃ t, exec (.discoverSize 0) (idleEx [.fault]) = .next t ∧ (t.busy, t.resCode) = (false, 1)) :=
  ⟨next_of (by decide), next_of (by decide), next_of (by decide), next_of (by decide),
    next_of (by decide)⟩

theorem witness_UnansweredExchangeHangs :
    (waitEx [.readResult, .issue 0]).busy = true ∧
    framerStep (waitEx [.readResult, .issue 0]) = .waiting ∧
    HostStep.reset ∉ (waitEx [.readResult, .issue 0]).host := by decide

/-- READ_STATUS that waits at its second exchange, with no step of the host left, and with a step left and
an answer more; and one cut by a turn. -/
theorem witness_WaitingIsTransparent :
    ((idleEx [.ok 1]).busy = false ∧ (idleEx [.ok 1]).host = [] ∧
      ∃ t, exec (.readStatus 0) (idleEx [.ok 1]) = .next t ∧ (t.busy, t.turns) = (true, [])) ∧
    (∃ t, exec (.readStatus 0) { idleEx [.ok 1] with host := [.readResult] } = .next t ∧
      (t.busy, t.turns, (movedTo (framerStep { t with answers := t.answers ++ [.ok 2] })).isSome) =
        (true, [], true)) ∧
    (∃ t, exec (.readStatus 0) { idleEx [.ok 1, .ok 2] with turns := [2] } = .next t ∧
      (t.busy, t.turns, t.answers) = (true, [], [.ok 2])) :=
  ⟨⟨rfl, rfl, next_of (by decide)⟩,
    next_of (f := fun t =>
      (t.busy, t.turns, (movedTo (framerStep { t with answers := t.answers ++ [.ok 2] })).isSome))
      (by decide),
    next_of (by decide)⟩

theorem witness_StepKeepsInvariant_idle : (idleEx []).Inv ∧
    ∃ t, step (idleEx []) = .next t ∧ t.busy = false :=
  ⟨idleEx_inv _, next_of (by decide)⟩

theorem witness_StepKeepsInvariant_busy : (midEx 4 .data 255 [.ok 9]).Inv ∧
    ∃ t, step (midEx 4 .data 255 [.ok 9]) = .next t ∧ t.busy = false :=
  ⟨midEx_page_inv _, next_of (by decide)⟩

theorem witness_InvariantStepAnswers : (midEx 7 .skip 3 []).Inv := midEx_skip_inv _

/-- ISSUE_CMD meets every premise of the statement on the selector, completed, faulted and waiting. -/
theorem witness_OperationFrame :
    (idleEx [.ok 1]).busy = false ∧
    (∃ t, exec (.issueCmd 0 6) (idleEx [.ok 1]) = .next t ∧ t.busy = false) ∧
    (∃ t, exec (.issueCmd 0 6) (idleEx [.fault]) = .next t ∧ t.flt = true) ∧
    (∃ t, exec (.issueCmd 0 6) (idleEx []) = .next t ∧ t.busy = true) :=
  ⟨rfl, next_of (by decide), next_of (by decide), next_of (by decide)⟩

/-- Both clauses: an operation that leaves BUF alone, and a READ_PAGE that has written one byte. -/
theorem witness_BufferFrame :
    (∃ t, exec (.issueCmd 0 6) (idleEx [.ok 1]) = .next t ∧ t.buf = []) ∧
    (∃ t, exec (.readPage 0 0) (idleEx [.ok 1, .ok 2, .ok 3, .ok 4, .ok 5]) = .next t ∧
      t.buf = [(0, 5)]) :=
  ⟨next_of (by decide), next_of (by decide)⟩

/-- A framer that an earlier operation has left with other registers, before the same answers. -/
def pastEx (answers : List Answer) : State :=
  { idleEx answers with opr := 7, ar := 9, resValid := true, resCode := 1, flt := true, h := 5, acc := 6,
                        sr := 7, wire := [.csA, .xf 0x5A, .csD] }

theorem witness_OperationIgnoresThePast :
    (idleEx [.ok 1, .ok 2]).busy = false ∧ (pastEx [.ok 1, .ok 2]).busy = false ∧
    (idleEx [.ok 1, .ok 2]).cfg = (pastEx [.ok 1, .ok 2]).cfg ∧
    (idleEx [.ok 1, .ok 2]).answers = (pastEx [.ok 1, .ok 2]).answers ∧
    (idleEx [.ok 1, .ok 2]).turns = (pastEx [.ok 1, .ok 2]).turns ∧
    (idleEx [.ok 1, .ok 2]).turns.head? ≠ some 0 ∧
    (∃ t, exec (.readStatus 0) (idleEx [.ok 1, .ok 2]) = .next t ∧ t.busy = false) ∧
    (∃ t, exec (.readStatus 0) (pastEx [.ok 1, .ok 2]) = .next t ∧ t.busy = false) :=
  ⟨rfl, rfl, rfl, rfl, rfl, by decide, next_of (by decide), next_of (by decide)⟩

/-- WRITE_PAGE, whose premise on BUF and the draws is met: by equal counts with nothing written, and by a
BUF all written with unequal counts. -/
theorem witness_OperationIgnoresThePast_writePage :
    (Instr.writePage 0 0).sel = 5#3 ∧ (idleEx [.ok 1]).buf = (pastEx [.ok 1]).buf ∧
    (idleEx [.ok 1]).draws = (pastEx [.ok 1]).draws ∧
    (∃ t, exec (.writePage 0 0) (idleEx [.ok 1]) = .next t ∧ t.ph = .addr) ∧
    (∃ t, exec (.writePage 0 0) (pastEx [.ok 1]) = .next t ∧ t.ph = .addr) ∧
    (∀ k, k < 256 → (Memory.read fullEx.buf k).isSome = true) ∧
    ({ fullEx with draws := 5 } : State).draws ≠ fullEx.draws :=
  ⟨rfl, rfl, rfl, next_of (by decide), next_of (by decide), by decide +kernel, by decide⟩

/-- READ_PAGE run to its end, the premise of the last clause. -/
theorem witness_OperationIgnoresThePast_readPage :
    (Instr.readPage 0 0).sel = 4#3 ∧
    (∃ t, exec (.readPage 0 0) (idleEx pageAnswers) = .next t ∧ (t.busy, t.resCode) = (false, 0)) ∧
    (∃ t, exec (.readPage 0 0) (pastEx pageAnswers) = .next t ∧ (t.busy, t.resCode) = (false, 0)) :=
  ⟨rfl, next_of (by decide +kernel), next_of (by decide +kernel)⟩

/-- One pair of commands of every form, with ignored bits that differ. -/
theorem witness_IgnoredBitsDoNothing :
    (idleEx []).busy = false ∧
    decode 0x0ABCDEF79 = .issueCmd 0xABCDEF 0x79 ∧ decode 0x000000079 = .issueCmd 0 0x79 ∧
    decode 0x1FFFFFFFF = .readStatus 0xFFFFFFFF ∧ decode 0x100000000 = .readStatus 0 ∧
    decode 0x200000001 = .enterUdpd 1 ∧ decode 0x200000000 = .enterUdpd 0 ∧
    decode 0x380000000 = .exitSleep 0x80000000 ∧ decode 0x300000000 = .exitSleep 0 ∧
    decode 0x4FF123456 = .readPage 0xFF 0x123456 ∧ decode 0x400123456 = .readPage 0 0x123456 ∧
    decode 0x5FF001000 = .writePage 0xFF 0x001000 ∧ decode 0x500001000 = .writePage 0 0x001000 ∧
    decode 0x601000000 = .erasePage 1 0 ∧ decode 0x600000000 = .erasePage 0 0 ∧
    decode 0x7DEADBEEF = .discoverSize 0xDEADBEEF ∧ decode 0x700000000 = .discoverSize 0 := by decide

theorem witness_EnterUdpdIsIssueCmd : (idleEx [.ok 1]).busy = false ∧ (idleEx []).busy = false := by
  decide

/-- With and without a fault. -/
theorem witness_ExitSleepIsIssueCmdAndSpin :
    (∃ t, exec (.exitSleep 0) (idleEx [.ok 1]) = .next t ∧ (t.busy, t.flt) = (false, false)) ∧
    (∃ t, exec (.exitSleep 0) (idleEx [.fault]) = .next t ∧ (t.busy, t.flt) = (false, true)) :=
  ⟨next_of (by decide), next_of (by decide)⟩

/-- A read of the written byte 255, a write, and both while BUSY = 1. -/
theorem witness_HostBufferAccess :
    ((fullEx.busy = false ∧ ({ fullEx with host := [.hostRead 0xFF] } : State).host = .hostRead 0xFF :: []) ∧
      Memory.read fullEx.buf (0xFF : Byte).toNat = some 0xFF) ∧
    ((hostEx [.hostWrite 0xFF 9]).busy = false ∧
      (hostEx [.hostWrite 0xFF 9]).host = .hostWrite 0xFF 9 :: []) ∧
    (∃ t, step (waitEx [.hostRead 0]) = .next t ∧ t.busy = true) ∧
    (∃ t, step (waitEx [.hostWrite 0 9]) = .next t ∧ t.busy = true) :=
  ⟨by decide +kernel, by decide, next_of (by decide), next_of (by decide)⟩

theorem witness_UnwrittenReadIsADraw :
    (hostEx [.hostRead 0xFF]).busy = false ∧ (hostEx [.hostRead 0xFF]).host = .hostRead 0xFF :: [] ∧
    Memory.read (hostEx [.hostRead 0xFF]).buf (0xFF : Byte).toNat = none := by decide

/-- With and without a valid result, while the framer waits, and at a turn of the host. -/
theorem witness_HostReadsResult :
    ((({ hostEx [.readResult] with resValid := true } : State).hostActsIn
        { hostEx [.readResult] with resValid := true }) ∧
      ({ hostEx [.readResult] with resValid := true } : State).host = .readResult :: []) ∧
    ((hostEx [.readResult]).hostActsIn (hostEx [.readResult]) ∧
      (hostEx [.readResult]).resValid = false) ∧
    ((waitEx [.readResult]).hostActsIn (waitEx [.readResult]) ∧ (waitEx [.readResult]).busy = true) ∧
    ({ midEx 1 .deselect 0 [] with host := [.readResult], turns := [0] } : State).hostActsIn
      { midEx 1 .deselect 0 [] with host := [.readResult] } :=
  ⟨⟨.inl ⟨rfl, .inl rfl⟩, rfl⟩, ⟨.inl ⟨rfl, .inl rfl⟩, rfl⟩, ⟨.inl ⟨rfl, .inr (by decide)⟩, rfl⟩,
    .inr ⟨rfl, ⟨_, rfl⟩, [], rfl, rfl⟩⟩

/-- While idle, at a wait, and at a turn of the host before the spin of EXIT_SLEEP. -/
theorem witness_ResetStep :
    ((hostEx [.reset]).hostActsIn (hostEx [.reset]) ∧ (hostEx [.reset]).host = .reset :: []) ∧
    ((waitEx [.reset]).hostActsIn (waitEx [.reset]) ∧ (waitEx [.reset]).host = .reset :: []) ∧
    ({ midEx 3 .wake 0 [] with host := [.reset], turns := [0] } : State).hostActsIn
      { midEx 3 .wake 0 [] with host := [.reset] } :=
  ⟨⟨.inl ⟨rfl, .inl rfl⟩, rfl⟩, ⟨.inl ⟨rfl, .inr (by decide)⟩, rfl⟩,
    .inr ⟨rfl, ⟨_, rfl⟩, [], rfl, rfl⟩⟩

theorem witness_IdleFramerWaits : (idleEx [.ok 1]).busy = false ∧ (idleEx [.ok 1]).host = [] := by decide

/-- A transport that answers a write and then a read with the bytes written. -/
def roundTripAnswers : List Answer :=
  okAnswers (1 :: 2 :: 3 :: 4 :: pageData) ++ okAnswers ([5, 6, 7, 8] ++ payload fullEx) ++ []

/-- BUF[k] = k before that transport. -/
def roundTripEx : State := { fullEx with answers := roundTripAnswers }

theorem witness_PageRoundTrip :
    roundTripEx.busy = false ∧ roundTripEx.turns = [] ∧ Memory.wf roundTripEx.buf = true ∧
    (∀ k, k < 256 → (Memory.read roundTripEx.buf k).isSome = true) ∧
    (1 :: 2 :: 3 :: 4 :: pageData).length = 260 ∧ ([5, 6, 7, 8] : List Byte).length = 4 ∧
    roundTripEx.answers = okAnswers (1 :: 2 :: 3 :: 4 :: pageData) ++
      okAnswers ([5, 6, 7, 8] ++ payload roundTripEx) ++ [] := by
  refine ⟨rfl, rfl, by decide +kernel, by decide +kernel,
    by simp only [List.length_cons, pageData_length], rfl, rfl⟩

end Sys2Proof.Tests
end

/-!
PROOF. What each row of the transition table may write, register by register (spec/10_state.md sections 2
to 6).
-/

namespace Sys2Proof.Machine

/-! ### What a row of the table writes -/

/-- What no exchange row writes besides its exchange: the flags, the result registers, WCNT, the wire
history, the transport's answers and the count of draws. -/
structure KeptByExchange (u v : State) : Prop where
  busy_eq : v.busy = u.busy
  resValid_eq : v.resValid = u.resValid
  resCode_eq : v.resCode = u.resCode
  resVal_eq : v.resVal = u.resVal
  flt_eq : v.flt = u.flt
  cs_eq : v.cs = u.cs
  wcnt_eq : v.wcnt = u.wcnt
  wire_eq : v.wire = u.wire
  answers_eq : v.answers = u.answers
  draws_eq : v.draws = u.draws

theorem XferRow.put_kept {s : State} {d : Nat} {tx : Byte} {put : Byte → State → State}
    (hr : XferRow s d tx put) (rx : Byte) (u : State) : KeptByExchange u (put rx u) := by
  cases hr <;> exact ⟨rfl, rfl, rfl, rfl, rfl, rfl, rfl, rfl, rfl, rfl⟩

/-- An exchange row stands inside the select window, before DESELECT. -/
theorem XferRow.phase {s : State} {d : Nat} {tx : Byte} {put : Byte → State → State}
    (hr : XferRow s d tx put) : s.ph.selected = true ∧ s.ph ≠ .deselect := by
  cases hr with
  | _ hp => rw [hp]; decide

/-- Only DATA of READ_PAGE writes BUF, and there only one of the 256 bytes (R19). -/
theorem XferRow.put_buf {s : State} {d : Nat} {tx : Byte} {put : Byte → State → State}
    (hr : XferRow s d tx put) (rx : Byte) (u : State) :
    (put rx u).buf = u.buf ∨
    (s.opr = 4#3 ∧ s.ph = .data ∧ s.ix.toNat < 256 ∧
      (put rx u).buf = Memory.write u.buf s.ix.toNat rx) := by
  cases hr with
  | dataRead hp hi ho => exact .inr ⟨ho, hp, by bv_omega, rfl⟩
  | dataReadLast hp hi ho => exact .inr ⟨ho, hp, by rw [hi]; decide, by rw [hi]; rfl⟩
  | _ => exact .inl rfl

/-- An exchange row leads to a listed position inside the select window (R85). -/
theorem XferRow.put_listed {s : State} {d : Nat} {tx : Byte} {put : Byte → State → State}
    (hr : XferRow s d tx put) (rx : Byte) (u : State) (ho : u.opr = s.opr) (hh : u.h = s.h) :
    (put rx u).listed = true ∧ (put rx u).ph.selected = true := by
  cases hr with
  | dataRead _ hi hs | dataWrite _ hi hs | dataWriteDraw _ hi hs | hdr _ hi hs | size _ hi hs =>
    simp [State.listed, Phase.selected, ho, hs]
    bv_omega
  | skip _ hi hs | align _ hi hs =>
    have hskip := toNat_skipCount s.h
    simp [State.listed, Phase.selected, ho, hs, hh]
    bv_omega
  | opcToAddr _ _ hs | addr0 _ _ hs | addr1 _ _ hs =>
    simp [State.listed, Phase.selected, ho, or_assoc, hs]
  | opcToData _ _ hs | addr2ToData _ _ hs | opcToHdr _ _ hs | hdrLast _ _ hs
  | skipLast _ _ hs => simp [State.listed, Phase.selected, ho, hs]
  | _ => exact ⟨rfl, rfl⟩

/-- A framer step puts exactly one event on the wire (R84). -/
theorem TableRow.wire {s t : State} (h : TableRow s t) : ∃ e, t.wire = s.wire ++ [e] := by
  cases h with
  | ok hc hr ha => exact ⟨_, (hr.put_kept _ _).wire_eq⟩
  | _ => exact ⟨_, rfl⟩

/-- A framer step consumes at most one answer of the transport. -/
theorem TableRow.answers {s t : State} (h : TableRow s t) : ∃ used, s.answers = used ++ t.answers := by
  cases h with
  | ok hc hr ha => exact ⟨[_], by rw [(hr.put_kept _ _).answers_eq, ha]; rfl⟩
  | fault hc hr ha hf => exact ⟨[_], ha⟩
  | _ => exact ⟨[], rfl⟩

/-- BUF is written only by DATA of READ_PAGE, at the sequencer's index (R19). -/
theorem TableRow.buf {s t : State} (h : TableRow s t) :
    t.buf = s.buf ∨
    (s.opr = 4#3 ∧ s.ph = .data ∧ s.ix.toNat < 256 ∧
      ∃ rx, t.buf = Memory.write s.buf s.ix.toNat rx) := by
  cases h with
  | ok hc hr ha =>
    obtain hk | ⟨ho, hp, hi, hw⟩ := hr.put_buf _ (exchanged _ _ _ _ s)
    · exact .inl hk
    · exact .inr ⟨ho, hp, hi, _, hw⟩
  | _ => exact .inl rfl

/-- H is written only by HDR (R26). -/
theorem TableRow.h_eq {s t : State} (h : TableRow s t) (hn : s.opr ≠ 7#3 ∨ s.ph ≠ .hdr) :
    t.h = s.h := by
  cases h with
  | ok hc hr ha =>
    cases hr with
    | hdr hp hi ho | hdrLast hp hi ho => simp [hp, ho] at hn
    | _ => rfl
  | _ => rfl

/-- ACC is written only by SIZE (R27). -/
theorem TableRow.acc_eq {s t : State} (h : TableRow s t) (hn : s.opr ≠ 7#3 ∨ s.ph ≠ .size) :
    t.acc = s.acc := by
  cases h with
  | ok hc hr ha =>
    cases hr with
    | size hp hi ho | sizeLast hp hi ho => simp [hp, ho] at hn
    | _ => rfl
  | _ => rfl

/-- SR is written only by DATA of READ_STATUS (R28). -/
theorem TableRow.sr_eq {s t : State} (h : TableRow s t) (hn : s.opr ≠ 1#3 ∨ s.ph ≠ .data) :
    t.sr = s.sr := by
  cases h with
  | ok hc hr ha =>
    cases hr with
    | dataStatus hp hi ho => simp [hp, ho] at hn
    | _ => rfl
  | _ => rfl

/-- WCNT is written only by DESELECT and WAKE of EXIT_SLEEP (R29). -/
theorem TableRow.wcnt_eq {s t : State} (h : TableRow s t)
    (hn : s.opr ≠ 3#3 ∨ (s.ph ≠ .deselect ∧ s.ph ≠ .wake)) : t.wcnt = s.wcnt := by
  cases h with
  | ok hc hr ha => exact (hr.put_kept _ _).wcnt_eq
  | deselectWake hp hi hf ho | wake hp hi ho => simp [hp, ho] at hn
  | _ => rfl

/-- Only the payload exchanges of WRITE_PAGE draw (R35). -/
theorem XferRow.draws_zero {s : State} {d : Nat} {tx : Byte} {put : Byte → State → State}
    (hr : XferRow s d tx put) (hn : s.opr ≠ 5#3 ∨ s.ph ≠ .data) : d = 0 := by
  cases hr with
  | dataWriteDraw hp hi ho hv | dataWriteLastDraw hp hi ho hv => simp [hp, ho] at hn
  | _ => rfl

/-- The count of draws moves only in DATA of WRITE_PAGE. -/
theorem TableRow.draws_eq {s t : State} (h : TableRow s t) (hn : s.opr ≠ 5#3 ∨ s.ph ≠ .data) :
    t.draws = s.draws := by
  cases h with
  | ok hc hr ha =>
    rw [(hr.put_kept _ _).draws_eq, hr.draws_zero hn]
    rfl
  | fault hc hr ha hf =>
    rw [hr.draws_zero hn]
    rfl
  | _ => rfl

/-- BUSY and the result registers are written only by a step that completes the operation, at DESELECT
or WAKE (R21 to R23). -/
theorem TableRow.result {s t : State} (h : TableRow s t) :
    (t.busy = s.busy ∧ t.resCode = s.resCode ∧ t.resVal = s.resVal ∧ t.resValid = s.resValid) ∨
    ((s.ph = .deselect ∨ s.ph = .wake) ∧ t.busy = false) := by
  cases h with
  | ok hc hr ha =>
    have hk := hr.put_kept
    exact .inl ⟨(hk _ _).busy_eq, (hk _ _).resCode_eq, (hk _ _).resVal_eq, (hk _ _).resValid_eq⟩
  | select | fault | deselectWake => exact .inl ⟨rfl, rfl, rfl, rfl⟩
  | wake hp hi ho => exact .inr ⟨.inr hp, rfl⟩
  | deselectFault hp | deselectStatus hp | deselectSize hp | deselectDone hp =>
    exact .inr ⟨.inl hp, rfl⟩

/-- CS is written only by SELECT and DESELECT (R25). -/
theorem TableRow.cs_eq {s t : State} (h : TableRow s t) (hs : s.ph ≠ .select) (hd : s.ph ≠ .deselect) :
    t.cs = s.cs := by
  cases h with
  | ok hc hr ha => exact (hr.put_kept _ _).cs_eq
  | fault | wake => rfl
  | select hp => exact absurd hp hs
  | deselectFault hp | deselectWake hp | deselectStatus hp | deselectSize hp | deselectDone hp =>
    exact absurd hp hd

/-- FLT is written only by a fault exit, which goes to (DESELECT, 0) (R24, R131). -/
theorem TableRow.flt {s t : State} (h : TableRow s t) :
    t.flt = s.flt ∨ (t.flt = true ∧ t.ph = .deselect ∧ t.ix = 0) := by
  cases h with
  | ok hc hr ha => exact .inl (hr.put_kept _ _).flt_eq
  | fault => exact .inr ⟨rfl, rfl, rfl⟩
  | _ => exact .inl rfl

end Sys2Proof.Machine

namespace Sys2Proof.Proofs

open Sys2Proof Sys2Proof.Machine

/-- Settles O12: a framer step is a row of the table, and each register has the writers said above. -/
theorem registerWriters : Obligations.RegisterWriters := by
  intro s t hst
  have h := tableRow_of_framerStep hst
  have hout := h.sameOutside
  refine ⟨hout.opr_eq, hout.ar_eq, hout.cfg_eq, hout.host_eq, hout.seen_eq, hout.turns_eq, ?_, ?_,
    h.h_eq, h.acc_eq, h.sr_eq, h.wcnt_eq, h.draws_eq, ?_, h.cs_eq, h.flt⟩
  · intro hn
    obtain hk | ⟨ho, hp, -⟩ := h.buf
    · exact hk
    · simp [ho, hp] at hn
  · intro k hk
    obtain hb | ⟨-, -, -, rx, hb⟩ := h.buf
    · rw [hb]
    · rw [hb, Memory.read_write_other _ _ _ _ hk]
  · intro hn
    obtain hkept | ⟨hp, hdone⟩ := h.result
    · exact hkept
    · obtain ⟨hnd, hnw⟩ | ⟨-, hbusy⟩ := hn
      · exact absurd hp (by simp [hnd, hnw])
      · simp [hdone] at hbusy

end Sys2Proof.Proofs

/-!
PROOF. The invariant of the framer (spec/10_state.md R25, R36): every agent's step keeps it.
-/

namespace Sys2Proof.Machine

/-! ### The select window -/

theorem windowFrom_append (o : Bool) (w v : List WireEvent) :
    windowFrom o (w ++ v) = (windowFrom o w).bind (windowFrom · v) := by
  induction w generalizing o with
  | nil => rfl
  | cons e w ih =>
    simp only [List.cons_append, windowFrom]
    cases windowAfter o e with
    | none => rfl
    | some o' => exact ih o'

/-- One more event after a wire history of whole windows, at most one open. -/
theorem windowOf_concat {w : List WireEvent} {o o' : Bool} {e : WireEvent} (h : windowOf w = some o)
    (he : windowAfter o e = some o') : windowOf (w ++ [e]) = some o' := by
  rw [windowOf] at h ⊢
  simp [windowFrom_append, h, windowFrom, he]

/-! ### The invariant, by the two kinds of state -/

/-- The invariant of a state with an operation in progress. -/
theorem State.Inv.of_busy {s : State} (hb : s.busy = true) (hbuf : Memory.wf s.buf = true)
    (hcs : s.cs = s.ph.selected) (hl : s.listed = true) (hv : s.resValid = false)
    (hf : s.flt = true → s.ph = .deselect) (hw : windowOf s.wire = some s.cs) : s.Inv where
  buf_wf := hbuf
  busy_iff := by
    have : s.ph ≠ .idle := fun hp => by simp [State.listed, hp] at hl
    simp [hb, this]
  cs_eq := hcs
  listed_of_busy _ := hl
  invalid_of_busy _ := hv
  code_of_valid h := by simp [hv] at h
  flt_of_busy _ := hf
  flt_of_valid h := by simp [hv] at h
  val_of_fault h := by simp [hv] at h
  window_eq := hw

/-- The invariant of a state whose operation has just completed, without or with a fault. -/
theorem State.Inv.of_completed {s : State} (hb : s.busy = false) (hp : s.ph = .idle)
    (hbuf : Memory.wf s.buf = true) (hcs : s.cs = false) (hw : windowOf s.wire = some false)
    (hres : (s.flt = false ∧ s.resCode = 0) ∨ (s.flt = true ∧ s.resCode = 1 ∧ s.resVal = 0)) :
    s.Inv where
  buf_wf := hbuf
  busy_iff := by simp [hb, hp]
  cs_eq := by rw [hcs, hp]; rfl
  listed_of_busy h := by simp [hb] at h
  invalid_of_busy h := by simp [hb] at h
  code_of_valid _ := hres.imp And.right fun h => h.2.1
  flt_of_busy h := by simp [hb] at h
  flt_of_valid _ := by obtain ⟨hf, hc⟩ | ⟨hf, hc, -⟩ := hres <;> simp [hf, hc]
  val_of_fault _ hc := by
    obtain ⟨-, hc0⟩ | ⟨-, -, hval⟩ := hres
    · simp [hc0] at hc
    · exact hval
  window_eq := by rw [hcs, hw]

/-- The invariant says nothing of the environment: the answers, the host's side, the draws, the turns. -/
theorem State.Inv.environment {s : State} (h : s.Inv) (c : Config) (as : List Answer)
    (hs : List HostStep) (vs : List HostValue) (d : Nat) (ts : List Nat) :
    ({ s with cfg := c, answers := as, host := hs, seen := vs, draws := d, turns := ts } : State).Inv :=
  ⟨h.buf_wf, h.busy_iff, h.cs_eq, h.listed_of_busy, h.invalid_of_busy, h.code_of_valid, h.flt_of_busy,
    h.flt_of_valid, h.val_of_fault, h.window_eq⟩

/-! ### Every agent's step keeps the invariant -/

/-- While an operation is in progress, CS is 1 in a selected phase and no fault is under way before
DESELECT. -/
theorem State.Inv.at_exchange {s : State} (hinv : s.Inv) (hb : s.busy = true) {d : Nat} {tx : Byte}
    {put : Byte → State → State} (hr : XferRow s d tx put) :
    s.cs = true ∧ s.flt = false ∧ windowOf s.wire = some true := by
  obtain ⟨hsel, hnd⟩ := hr.phase
  have hcs : s.cs = true := hinv.cs_eq.trans hsel
  refine ⟨hcs, ?_, hcs ▸ hinv.window_eq⟩
  exact Bool.eq_false_iff.mpr fun hf => hnd (hinv.flt_of_busy hb hf)

/-- Every row of the table keeps the invariant. -/
theorem TableRow.inv {s t : State} (h : TableRow s t) (hb : s.busy = true) (hinv : s.Inv) : t.Inv := by
  have hbuf : Memory.wf t.buf = true := by
    obtain hk | ⟨-, -, hi, rx, hw⟩ := h.buf
    · rw [hk]; exact hinv.buf_wf
    · rw [hw]; exact Memory.wf_write _ _ _ hi hinv.buf_wf
  have hwin := hinv.window_eq
  have hcs := hinv.cs_eq
  have hval := hinv.invalid_of_busy hb
  have hflt := hinv.flt_of_busy hb
  cases h with
  | select hp hi =>
    rw [hcs, hp] at hwin
    exact .of_busy hb hbuf rfl rfl hval (fun hf => by simp [hflt hf] at hp) (windowOf_concat hwin rfl)
  | @ok hc d tx rx put rest hr ha =>
    obtain ⟨-, hf, hwin⟩ := hinv.at_exchange hb hr
    obtain ⟨hl, hsel⟩ := hr.put_listed rx (exchanged d tx rx rest s) rfl rfl
    have hk := hr.put_kept rx (exchanged d tx rx rest s)
    have hct := hk.cs_eq.trans hc
    refine .of_busy (hk.busy_eq.trans hb) hbuf (hct.trans hsel.symm) hl (hk.resValid_eq.trans hval)
      (fun hft => ?_) ?_
    · rw [hk.flt_eq.trans hf] at hft
      cases hft
    · rw [hk.wire_eq, hct]
      exact windowOf_concat hwin rfl
  | fault hc hr =>
    obtain ⟨-, -, hwin⟩ := hinv.at_exchange hb hr
    exact .of_busy hb hbuf hc rfl hval (fun _ => rfl) ((windowOf_concat hwin rfl).trans (hc ▸ rfl))
  | deselectWake hp hi hf ho =>
    rw [hcs, hp] at hwin
    exact .of_busy hb hbuf rfl (by simp [State.listed, ho]) hval (fun hft => by simp [hf] at hft)
      (windowOf_concat hwin rfl)
  | deselectFault hp hi hf =>
    rw [hcs, hp] at hwin
    exact .of_completed rfl rfl hbuf rfl (windowOf_concat hwin rfl) (.inr ⟨hf, rfl, rfl⟩)
  | deselectStatus hp hi hf | deselectSize hp hi hf | deselectDone hp hi hf =>
    rw [hcs, hp] at hwin
    exact .of_completed rfl rfl hbuf rfl (windowOf_concat hwin rfl) (.inl ⟨hf, rfl⟩)
  | wake hp hi ho =>
    rw [hcs, hp] at hwin
    have hf : s.flt = false := Bool.eq_false_iff.mpr fun hf => by simp [hflt hf] at hp
    exact .of_completed rfl rfl hbuf (hcs.trans (by rw [hp]; rfl)) (windowOf_concat hwin rfl)
      (.inl ⟨hf, rfl⟩)

/-- Acceptance of a command establishes the invariant of an operation in progress. -/
theorem State.Inv.accept {s : State} (hinv : s.Inv) (hb : s.busy = false) (sel : Selector) (a : Word) :
    (accept sel a s).Inv := by
  have hcs : s.cs = false := by rw [hinv.cs_eq, hinv.busy_iff.mp hb]; rfl
  exact .of_busy rfl hinv.buf_wf hcs rfl rfl (fun hf => by simp at hf) hinv.window_eq

/-- Every operation offered to an idle framer keeps the invariant. -/
theorem exec_inv (i : Instr) {s t : State} (hb : s.busy = false) (hinv : s.Inv)
    (h : exec i s = .next t) : t.Inv :=
  exec_keeps i hb ((hinv.accept hb i.sel i.arg).environment _ _ _ _ _ _)
    (fun _ _ hub hu huv => huv.inv hub hu) h

theorem reset_inv : State.reset.Inv where
  buf_wf := rfl
  busy_iff := by simp [State.reset]
  cs_eq := rfl
  listed_of_busy h := by cases h
  invalid_of_busy h := by cases h
  code_of_valid h := by cases h
  flt_of_busy h := by cases h
  flt_of_valid h := by cases h
  val_of_fault h := by cases h
  window_eq := rfl

theorem resetFramer_inv (s : State) : (resetFramer s).Inv := reset_inv.environment _ _ _ _ _ _

theorem hostReadResult_inv {s : State} (hinv : s.Inv) : (hostReadResult s).Inv := by
  obtain ⟨v, d, h⟩ := hostReadResult_eq s
  rw [h]
  exact hinv.environment _ _ _ _ _ _

theorem hostReadBuf_inv (i : Byte) {s : State} (hinv : s.Inv) : (hostReadBuf i s).Inv := by
  obtain ⟨v, d, h⟩ := hostReadBuf_eq i s
  rw [h]
  exact hinv.environment _ _ _ _ _ _

/-- A host write of BUF stays inside the 256 bytes. -/
theorem hostWriteBuf_inv (i v : Byte) {s : State} (hinv : s.Inv) : (hostWriteBuf i v s).Inv :=
  { hinv with buf_wf := Memory.wf_write _ _ _ i.isLt hinv.buf_wf }

/-- The host's turn with BUSY = 0 keeps the invariant. -/
theorem hostTurn_inv {s t : State} (hb : s.busy = false) (hinv : s.Inv) (h : hostTurn s = .next t) :
    t.Inv := by
  have hpop (rest : List HostStep) : ({ s with host := rest } : State).Inv :=
    hinv.environment _ _ _ _ _ _
  rcases hostTurn_cases s with ⟨-, he⟩ | ⟨a, rest, -, ⟨w, -, he⟩ | ⟨i, -, he⟩ | ⟨i, v, -, he⟩ | ⟨-, he⟩ |
    ⟨-, he⟩⟩ <;> rw [he] at h
  · cases h; exact hinv
  · exact exec_inv (s := { s with host := rest }) (decode w) hb (hpop rest) h
  · cases h; exact hostReadBuf_inv i (hpop rest)
  · cases h; exact hostWriteBuf_inv i v (hpop rest)
  · cases h; exact hostReadResult_inv (hpop rest)
  · cases h; exact resetFramer_inv _

/-- The host's turn with BUSY = 1 keeps the invariant. -/
theorem hostTurnBusy_inv {s t : State} (hinv : s.Inv) (h : hostTurnBusy s = .next t) : t.Inv := by
  rcases hostTurnBusy_cases s with he | ⟨rest, -, he⟩ | ⟨rest, -, he⟩ <;> rw [he] at h <;> cases h
  · exact hinv
  · exact hostReadResult_inv (hinv.environment _ _ _ _ _ _)
  · exact resetFramer_inv _

/-- A step with BUSY = 1 is a turn of the host, with or without an entry of the turns taken, or a turn of
the framer: what both keep, the step keeps. -/
theorem step_busy_keeps {P : State → Prop} {s t : State} (hb : s.busy = true)
    (hs : ∀ ts, P { s with turns := ts })
    (hhost : ∀ ts u, hostTurnBusy { s with turns := ts } = .next u → P u)
    (hrow : ∀ u v, u.busy = true → P u → TableRow u v → P v) (h : step s = .next t) : P t := by
  rw [step_of_busy hb] at h
  cases hf : framerStep s with
  | moved u =>
    by_cases hz : s.turns.head? = some 0
    · obtain ⟨ts, hts⟩ := List.head?_eq_some_iff.mp hz
      rw [busyTurn_of_zero hf hts] at h
      exact hhost ts t h
    · rw [busyTurn_of_moved hf hz, runTurn] at h
      exact runRows_keeps (fun u v hub hu huv => hrow u v hub hu (tableRow_of_framerStep huv)) _
        (s := { s with turns := s.turns.tail }) hb (hs _) h
  | waiting =>
    rw [busyTurn_of_waiting hf] at h
    exact hhost s.turns t h
  | noRow => simp [busyTurn, hf] at h

end Sys2Proof.Machine

namespace Sys2Proof.Proofs

open Sys2Proof Sys2Proof.Machine

/-- Settles O39: the host's turn while BUSY = 0, and while BUSY = 1 both agents' turns, keep the
invariant. -/
theorem stepKeepsInvariant : Obligations.StepKeepsInvariant := by
  intro s t hinv h
  cases hb : s.busy with
  | false => exact hostTurn_inv hb hinv (step_of_idle hb ▸ h)
  | true =>
    exact step_busy_keeps hb (fun ts => hinv.environment _ _ _ _ _ _)
      (fun ts u hu => hostTurnBusy_inv (hinv.environment _ _ _ _ _ _) hu)
      (fun u v hub hu huv => huv.inv hub hu) h

/-- Settles O13: a framer step is a row of the table, and every row keeps the invariant. -/
theorem framerStepKeepsInvariant : Obligations.FramerStepKeepsInvariant :=
  fun _ _ hb hinv h => (tableRow_of_framerStep h).inv hb hinv

/-- Settles O38. -/
theorem resetInvariant : Obligations.ResetInvariant := reset_inv

end Sys2Proof.Proofs

/-!
PROOF. The command word and the host's steps, one by one (spec/10_state.md R15, R20, R23, R35, R36).
-/

namespace Sys2Proof.Machine

/-! ### The command word -/

/-- The selector of a decoded command word is CMD[34:32] (R60, R61). -/
theorem decode_sel (w : CmdWord) : (decode w).sel = w.extractLsb' 32 3 := by
  unfold decode decodeFields
  change _ = cmdSel w
  rcases selector_cases (cmdSel w) with h | h | h | h | h | h | h | h <;> rw [h] <;> rfl

/-- Adjacent fields of an operand, put together again, are the operand. -/
theorem argFields_append (a : Word) :
    argAboveOpb a ++ argOpb a = a ∧ argHigh a ++ argAddr a = a := by
  constructor <;>
  exact (BitVec.extractLsb'_append_extractLsb'_eq_extractLsb' rfl).trans BitVec.extractLsb'_eq_self

/-- The operand of a decoded command word is CMD[31:0], no bit lost (R60, R62). -/
theorem decode_arg (w : CmdWord) : (decode w).arg = w.extractLsb' 0 32 := by
  obtain ⟨hopb, haddr⟩ := argFields_append (cmdArg w)
  unfold decode decodeFields
  change _ = cmdArg w
  rcases selector_cases (cmdSel w) with h | h | h | h | h | h | h | h <;> rw [h]
  · exact hopb
  · rfl
  · rfl
  · rfl
  · exact haddr
  · exact haddr
  · exact haddr
  · rfl

/-! ### The host's steps, one by one -/

/-- An idle framer runs the command word the host offers (R15). -/
theorem step_of_issue {s : State} {w : CmdWord} {rest : List HostStep} (hb : s.busy = false)
    (hh : s.host = .issue w :: rest) : step s = exec (decode w) { s with host := rest } := by
  simp [step_of_idle hb, hostTurn, hh, popHost]

/-- A read of BUF by the host of an idle framer (R20). -/
theorem step_of_hostRead {s : State} {i : Byte} {rest : List HostStep} (hb : s.busy = false)
    (hh : s.host = .hostRead i :: rest) : step s = .next (hostReadBuf i { s with host := rest }) := by
  simp [step_of_idle hb, hostTurn, hh, popHost]

/-- A write of BUF by the host of an idle framer (R20). -/
theorem step_of_hostWrite {s : State} {i v : Byte} {rest : List HostStep} (hb : s.busy = false)
    (hh : s.host = .hostWrite i v :: rest) :
    step s = .next (hostWriteBuf i v { s with host := rest }) := by
  simp [step_of_idle hb, hostTurn, hh, popHost]

/-- A read of the result registers by the host of an idle framer. -/
theorem step_of_readResult {s : State} {rest : List HostStep} (hb : s.busy = false)
    (hh : s.host = .readResult :: rest) : step s = .next (hostReadResult { s with host := rest }) := by
  simp [step_of_idle hb, hostTurn, hh, popHost]

theorem hostTurnBusy_of_readResult {s : State} {rest : List HostStep}
    (hh : s.host = .readResult :: rest) :
    hostTurnBusy s = .next (hostReadResult { s with host := rest }) := by
  simp [hostTurnBusy, hh, popHost]

theorem hostTurnBusy_of_reset {s : State} {rest : List HostStep} (hh : s.host = .reset :: rest) :
    hostTurnBusy s = .next (resetFramer { s with host := rest }) := by
  simp [hostTurnBusy, hh, popHost]

/-- While BUSY = 1 any step of the host but a read of the result registers and the reset waits. -/
theorem hostTurnBusy_of_other {s : State} (hr : ∀ rest, s.host ≠ .readResult :: rest)
    (hx : ∀ rest, s.host ≠ .reset :: rest) : hostTurnBusy s = .next s := by
  obtain he | ⟨rest, hh, -⟩ | ⟨rest, hh, -⟩ := hostTurnBusy_cases s
  · exact he
  · exact absurd hh (hr rest)
  · exact absurd hh (hx rest)

/-- While BUSY = 1 and the host's step waits, what every framer step keeps, a step keeps. -/
theorem step_busy_keeps_of_other {P : State → Prop} {s t : State} (hb : s.busy = true)
    (hr : ∀ rest, s.host ≠ .readResult :: rest) (hx : ∀ rest, s.host ≠ .reset :: rest)
    (hs : ∀ ts, P { s with turns := ts })
    (hrow : ∀ u v, u.busy = true → P u → TableRow u v → P v) (h : step s = .next t) : P t := by
  refine step_busy_keeps hb hs (fun ts u hu => ?_) hrow h
  rw [hostTurnBusy_of_other (s := { s with turns := ts }) hr hx] at hu
  cases hu
  exact hs ts

/-- A read of BUF by the host returns the byte held and draws nothing where something has written it. -/
theorem hostReadBuf_of_some {s : State} {i w : Byte} (h : Memory.read s.buf i.toNat = some w) :
    hostReadBuf i s = { s with seen := s.seen ++ [.bufByte i w] } := by
  rw [hostReadBuf, bufRead_of_some h]
  rfl

/-- A read of BUF by the host is a draw where nothing has written the byte (R35). -/
theorem hostReadBuf_of_none {s : State} {i : Byte} (h : Memory.read s.buf i.toNat = none) :
    hostReadBuf i s =
      { s with seen := s.seen ++ [.bufByte i (Config.freeByte s.draws)], draws := s.draws + 1 } := by
  rw [hostReadBuf, bufRead_of_none h]
  rfl

/-- While RES_VALID = 1 the host reads the result registers as they are (R23). -/
theorem hostReadResult_of_valid {s : State} (h : s.resValid = true) :
    hostReadResult s = { s with seen := s.seen ++ [.result s.busy true s.resCode s.resVal] } := by
  simp [hostReadResult, h, returnToHost]

/-- While RES_VALID = 0 the host draws RES_CODE and RES_VAL (R35). -/
theorem hostReadResult_of_invalid {s : State} (h : s.resValid = false) :
    hostReadResult s =
      { s with seen := s.seen ++
          [.result s.busy false (Config.freeCode s.draws) (Config.freeWord s.draws)],
               draws := s.draws + 1 } := by
  simp [hostReadResult, h, returnToHost]

/-- Where the host acts, it takes a read of the result registers in the state with the turn taken. -/
theorem step_of_hostActsIn_readResult {s u : State} {rest : List HostStep} (ha : s.hostActsIn u)
    (hh : s.host = .readResult :: rest) : step s = .next (hostReadResult { u with host := rest }) := by
  obtain ⟨rfl, hb | hw⟩ | ⟨hb, ⟨t, hm⟩, ts, hts, rfl⟩ := ha
  · exact step_of_readResult hb hh
  · obtain hb | hb := Bool.eq_false_or_eq_true u.busy
    · rw [step_of_busy hb, busyTurn_of_waiting hw, hostTurnBusy_of_readResult hh]
    · exact step_of_readResult hb hh
  · rw [step_of_busy hb, busyTurn_of_zero hm hts,
      hostTurnBusy_of_readResult (s := { s with turns := ts }) hh]

/-- Taking a turn changes the turns alone. -/
theorem State.hostActsIn.eq {s u : State} (ha : s.hostActsIn u) : ∃ ts, u = { s with turns := ts } := by
  obtain ⟨rfl, -⟩ | ⟨-, -, ts, -, rfl⟩ := ha
  · exact ⟨u.turns, rfl⟩
  · exact ⟨ts, rfl⟩

/-- The decoder reads a table row's bits as the command word of those bits. -/
theorem decodeTableWord_eq_some {nbits w : Nat} {i : Instr} (h : decodeTableWord nbits w = some i) :
    decode (BitVec.ofNat 35 (tableWord nbits w)) = i := by
  unfold decodeTableWord decodeNat at h
  split at h
  · rename_i j hj
    split_ifs at hj
    cases hj
    cases h
    rfl
  · cases h

end Sys2Proof.Machine

namespace Sys2Proof.Proofs

open Sys2Proof Sys2Proof.Machine

/-- Settles O14: acceptance is what `exec` does before the framer's turn; while BUSY = 1 the word stays
with the host whichever agent moves. -/
theorem acceptanceLatchesCommand : Obligations.AcceptanceLatchesCommand := by
  have hturn (s : State) (w : CmdWord) (rest : List HostStep) (hb : s.busy = false)
      (hh : s.host = .issue w :: rest) :
      step s = runTurn framerStep
        (accept (w.extractLsb' 32 3) (w.extractLsb' 0 32) { s with host := rest }) := by
    rw [step_of_issue hb hh, exec_eq_runTurn_framerStep (s := { s with host := rest }) _ hb, decode_sel,
      decode_arg]
  refine ⟨fun s w rest hb hh => ⟨fun ts hts => ?_, hturn s w rest hb hh⟩, fun s t w rest hb hh h => ?_,
    fun i _ hb => exec_of_busy i hb⟩
  · exact (hturn s w rest hb hh).trans (runTurn_cons (k := 0) hts)
  · refine step_busy_keeps_of_other (P := fun u => u.host = s.host ∧ u.opr = s.opr ∧ u.ar = s.ar) hb
      (by simp [hh]) (by simp [hh]) (fun ts => ⟨rfl, rfl, rfl⟩) (fun u v _ hu huv => ?_) h
    obtain ⟨hhost, hopr, har⟩ := hu
    have hout := huv.sameOutside
    exact ⟨hout.host_eq.trans hhost, hout.opr_eq.trans hopr, hout.ar_eq.trans har⟩

/-- Settles O47. While BUSY = 1 the host's step waits and only READ_PAGE writes BUF. -/
theorem hostBufferAccess : Obligations.HostBufferAccess := by
  refine ⟨fun s i rest hb hh => ?_, fun s i v rest hb hh => ?_, fun s t i v rest hb hh h => ?_⟩
  · cases hr : Memory.read s.buf i.toNat with
    | some w =>
      refine ⟨w, s.draws, ?_, fun _ hw => ⟨Option.some.inj hw, rfl⟩⟩
      rw [step_of_hostRead hb hh, hostReadBuf_of_some (s := { s with host := rest }) hr]
    | none =>
      refine ⟨Config.freeByte s.draws, s.draws + 1, ?_, fun _ hw => nomatch hw⟩
      rw [step_of_hostRead hb hh, hostReadBuf_of_none (s := { s with host := rest }) hr]
  · exact ⟨_, step_of_hostWrite hb hh, fun k => Memory.read_write _ _ _ _, rfl⟩
  · refine step_busy_keeps_of_other
      (P := fun u => u.host = s.host ∧ u.seen = s.seen ∧ u.opr = s.opr ∧ (s.opr ≠ 4#3 → u.buf = s.buf)) hb
      (fun _ he => ?_) (fun _ he => ?_) (fun ts => ⟨rfl, rfl, rfl, fun _ => rfl⟩)
      (fun u v _ hu huv => ?_) h |>.imp_right fun h => ⟨h.1, h.2.2⟩
    · simp [he] at hh
    · simp [he] at hh
    · obtain ⟨hhost, hseen, hopr, hbuf⟩ := hu
      have hout := huv.sameOutside
      refine ⟨hout.host_eq.trans hhost, hout.seen_eq.trans hseen, hout.opr_eq.trans hopr, fun hn => ?_⟩
      obtain hk | ⟨ho, -⟩ := huv.buf
      · exact hk.trans (hbuf hn)
      · exact absurd (hopr ▸ ho) hn

/-- Settles O15. -/
theorem stepRunsDecodedCommand : Obligations.StepRunsDecodedCommand :=
  fun _ _ _ hb hh => step_of_issue hb hh

/-- Settles O16: the placed command is the host's next step, offered to an idle framer. -/
theorem placedCommandRuns : Obligations.PlacedCommandRuns := by
  intro s nbits w i hi
  rw [← decodeTableWord_eq_some hi]
  exact step_of_issue (s := s.withFetchWord nbits w) rfl rfl

/-- Settles O17: the head of `turns` decides between `resume` and the host's turn. -/
theorem busyStepIsTheFramers : Obligations.BusyStepIsTheFramers := by
  intro s hb
  rw [step_of_busy hb]
  refine ⟨fun t hm => ⟨fun hts => ?_, fun k ts hts => ?_, fun ts hts => ?_⟩, fun hw => ?_⟩
  · rw [busyTurn_of_moved hm (by simp [hts]), runTurn_nil hts]
  · rw [busyTurn_of_moved hm (by simp [hts]), runTurn_cons hts]
  · rw [busyTurn_of_zero hm hts]
    exact ⟨fun _ hh => hostTurnBusy_of_readResult (s := { s with turns := ts }) hh,
      fun _ hh => hostTurnBusy_of_reset (s := { s with turns := ts }) hh,
      fun hr hx => hostTurnBusy_of_other (s := { s with turns := ts }) hr hx⟩
  · rw [busyTurn_of_waiting hw]
    exact ⟨fun _ => hostTurnBusy_of_readResult, fun _ => hostTurnBusy_of_reset, hostTurnBusy_of_other⟩

/-- Settles O48. -/
theorem unwrittenReadIsADraw : Obligations.UnwrittenReadIsADraw := by
  intro s i rest hb hh hn
  rw [step_of_hostRead hb hh, hostReadBuf_of_none (s := { s with host := rest }) hn]

/-- Settles O49: the read is of the state with the turn taken, which is `s` but for the turns. -/
theorem hostReadsResult : Obligations.HostReadsResult := by
  intro s u rest ha hh
  rw [step_of_hostActsIn_readResult ha hh]
  obtain ⟨ts, rfl⟩ := ha.eq
  constructor <;> intro hv
  · rw [hostReadResult_of_valid (s := { s with host := rest, turns := ts }) hv]
  · rw [hostReadResult_of_invalid (s := { s with host := rest, turns := ts }) hv]

/-- Settles O51. -/
theorem idleFramerWaits : Obligations.IdleFramerWaits := by
  intro s hb hh
  simp [step_of_idle hb, hostTurn, hh]

end Sys2Proof.Proofs

/-!
PROOF. What holds of a whole operation, whether it completes, faults, waits or is cut by a turn: its frame,
its completion code, its value and the bytes it writes.
-/

namespace Sys2Proof.Machine

/-! ### Along a whole operation -/

/-- The state in which the framer's turn begins: the command accepted and the turn's entry taken. -/
def accepted (i : Instr) (s : State) : State :=
  { accept i.sel i.arg s with turns := s.turns.tail }

/-- A meaning from an idle framer is acceptance and the framer steps of its turn. -/
theorem exec_eq_runRows_accepted (i : Instr) {s : State} (hb : s.busy = false) :
    exec i s = runRows framerStep (s.turns.headD maxFramerSteps) (accepted i s) :=
  exec_eq_runTurn_framerStep i hb

/-- What acceptance establishes and every row of the operation's own column keeps, holds after it. -/
theorem exec_keeps_opr {P : State → Prop} (i : Instr) {s t : State} (hb : s.busy = false)
    (hacc : P (accepted i s))
    (hrow : ∀ u v, u.busy = true → u.opr = i.sel → P u → TableRow u v → P v)
    (h : exec i s = .next t) : P t := by
  have hboth : P t ∧ t.opr = i.sel := by
    refine exec_keeps (P := fun u => P u ∧ u.opr = i.sel) i hb ⟨hacc, rfl⟩ (fun u v hub hu huv => ?_) h
    obtain ⟨hP, ho⟩ := hu
    exact ⟨hrow u v hub ho hP huv, huv.sameOutside.opr_eq.trans ho⟩
  exact hboth.1

/-- An operation leaves a field as acceptance left it, if no row of its column writes the field. -/
theorem exec_field_eq {α : Type} (f : State → α) (i : Instr) {s t : State} (hb : s.busy = false)
    (hrow : ∀ u v, u.opr = i.sel → TableRow u v → f v = f u) (h : exec i s = .next t) :
    f t = f (accepted i s) :=
  exec_keeps_opr (P := fun u => f u = f (accepted i s)) i hb rfl
    (fun u v _ ho hu huv => (hrow u v ho huv).trans hu) h

theorem exec_sameOutside (i : Instr) {s t : State} (hb : s.busy = false) (h : exec i s = .next t) :
    SameOutside (accepted i s) t :=
  exec_keeps_opr i hb (SameOutside.refl _) (fun _ _ _ _ hu huv => hu.trans huv.sameOutside) h

/-- The wire history only grows. -/
theorem exec_wire (i : Instr) {s t : State} (hb : s.busy = false) (h : exec i s = .next t) :
    ∃ ev, t.wire = s.wire ++ ev := by
  refine exec_keeps_opr (P := fun u => ∃ ev, u.wire = s.wire ++ ev) i hb ⟨[], by simp [accepted]⟩
    (fun u v _ _ hu huv => ?_) h
  obtain ⟨ev, hev⟩ := hu
  obtain ⟨e, he⟩ := huv.wire
  exact ⟨ev ++ [e], by rw [he, hev, List.append_assoc]⟩

/-- The transport's answers are only consumed. -/
theorem exec_answers (i : Instr) {s t : State} (hb : s.busy = false) (h : exec i s = .next t) :
    ∃ used, s.answers = used ++ t.answers := by
  refine exec_keeps_opr (P := fun u => ∃ used, s.answers = used ++ u.answers) i hb ⟨[], rfl⟩
    (fun u v _ _ hu huv => ?_) h
  obtain ⟨used, hused⟩ := hu
  obtain ⟨more, hmore⟩ := huv.answers
  exact ⟨used ++ more, by rw [hused, hmore, List.append_assoc]⟩

/-! ### The completion code -/

/-- How far an operation accepted in `s` has come in `u`, and what its faults have left so far: none yet
and RES_CODE untouched; the one fault, before DESELECT (R131); or completed, with the code (R21). -/
inductive FaultSoFar (s u : State) : Prop where
  | none (ev : List WireEvent) (hb : u.busy = true) (hc : u.resCode = s.resCode) (hf : u.flt = false)
      (hw : u.wire = s.wire ++ ev) (hno : ∀ tx, WireEvent.xf tx ∉ ev)
  | one (pre : List WireEvent) (tx : Byte) (hb : u.busy = true) (hc : u.resCode = s.resCode)
      (hf : u.flt = true) (hp : u.ph = .deselect) (hw : u.wire = s.wire ++ (pre ++ [.xf tx]))
      (hno : ∀ tx', WireEvent.xf tx' ∉ pre)
  | completed (ev : List WireEvent) (hb : u.busy = false) (hc : u.resCode = 0)
      (hw : u.wire = s.wire ++ ev) (hno : ∀ tx, WireEvent.xf tx ∉ ev)
  | faulted (pre : List WireEvent) (tx : Byte) (hb : u.busy = false) (hc : u.resCode = 1)
      (hw : u.wire = s.wire ++ (pre ++ [.xf tx, .csD])) (hno : ∀ tx', WireEvent.xf tx' ∉ pre)

/-- One more event that is no fault. -/
theorem xf_notMem_concat {ev : List WireEvent} {e : WireEvent} (hno : ∀ tx, WireEvent.xf tx ∉ ev)
    (he : ∀ tx, e ≠ .xf tx) (tx : Byte) : WireEvent.xf tx ∉ ev ++ [e] := by
  simp [hno tx, (he tx).symm]

theorem FaultSoFar.step {s u v : State} (hu : FaultSoFar s u) (hb : u.busy = true)
    (h : TableRow u v) : FaultSoFar s v := by
  cases hu with
  | none ev _ hc hf hw hno =>
    have hw' (e : WireEvent) : u.wire ++ [e] = s.wire ++ (ev ++ [e]) := by rw [hw, List.append_assoc]
    have hno' {e : WireEvent} (he : ∀ tx, e ≠ .xf tx) := xf_notMem_concat hno he
    cases h with
    | select => exact .none _ hb hc hf (hw' _) (hno' (by simp))
    | @ok _ d tx rx put rest hr =>
      have hk := hr.put_kept rx (exchanged d tx rx rest u)
      exact .none _ (hk.busy_eq.trans hb) (hk.resCode_eq.trans hc) (hk.flt_eq.trans hf)
        (hk.wire_eq.trans (hw' _)) (hno' (by simp))
    | fault => exact .one ev _ hb hc rfl rfl (hw' _) hno
    | deselectFault _ _ hft => simp [hf] at hft
    | deselectWake => exact .none _ hb hc hf (hw' _) (hno' (by simp))
    | deselectStatus | deselectSize | deselectDone | wake =>
      exact .completed _ rfl rfl (hw' _) (hno' (by simp))
  | one pre tx _ hc hf hp hw hno =>
    cases h with
    | deselectFault => exact .faulted pre tx rfl rfl (by simp [hw]) hno
    | ok _ hr | fault _ hr => exact absurd hp hr.phase.2
    | select hs | wake hs => simp [hp] at hs
    | deselectWake _ _ hn | deselectStatus _ _ hn | deselectSize _ _ hn | deselectDone _ _ hn =>
      simp [hf] at hn
  | completed _ hd | faulted _ _ hd => simp [hb] at hd

theorem exec_faultSoFar (i : Instr) {s t : State} (hb : s.busy = false) (h : exec i s = .next t) :
    FaultSoFar s t :=
  exec_keeps_opr i hb (.none [] rfl rfl rfl (by simp [accepted]) (by simp))
    (fun _ _ hub _ hu huv => hu.step hub huv) h

/-! ### The returned value -/

/-- What a completed operation of selector `k` has left in RES_VAL (R22). -/
structure ReturnsValue (k : Selector) (t : State) : Prop where
  status : t.resCode = 0 → k = 1#3 → t.resVal = t.sr.zeroExtend 32
  size : t.resCode = 0 → k = 7#3 → t.resVal = t.acc >>> 13
  other : k ≠ 1#3 → k ≠ 7#3 → t.resVal = 0
  faulted : t.resCode = 1 → t.resVal = 0

/-- The step that completes an operation writes RES_VAL as R22 says. -/
theorem TableRow.returnsValue {s t : State} (h : TableRow s t) (hb : s.busy = true)
    (hd : t.busy = false) : ReturnsValue s.opr t := by
  cases h with
  | select | fault | deselectWake => simp [hb] at hd
  | ok _ hr => simp [(hr.put_kept _ _).busy_eq, exchanged, hb] at hd
  | deselectFault => exact ⟨by simp, by simp, by simp, by simp⟩
  | deselectStatus _ _ _ ho => exact ⟨fun _ _ => rfl, by simp [ho], by simp [ho], by simp⟩
  | deselectSize _ _ _ ho => exact ⟨by simp [ho], fun _ _ => rfl, by simp [ho], by simp⟩
  | deselectDone _ _ _ ho => exact ⟨by simp [ho], by simp [ho], by simp, by simp⟩
  | wake _ _ ho => exact ⟨by simp [ho], by simp [ho], by simp, by simp⟩

/-- RES_VAL is untouched while the operation is in progress, and is the operation's at its end. -/
theorem exec_resVal (i : Instr) {s t : State} (hb : s.busy = false) (h : exec i s = .next t) :
    (t.busy = true → t.resVal = s.resVal) ∧ (t.busy = false → ReturnsValue i.sel t) := by
  refine exec_keeps_opr (P := fun u => (u.busy = true → u.resVal = s.resVal) ∧
    (u.busy = false → ReturnsValue i.sel u)) i hb ⟨fun _ => rfl, fun hd => nomatch hd⟩
    (fun u v hub ho hu huv => ⟨fun hvb => ?_, fun hd => ho ▸ huv.returnsValue hub hd⟩) h
  obtain ⟨-, -, hval, -⟩ | ⟨-, hd⟩ := huv.result
  · exact hval.trans (hu.1 hub)
  · simp [hvb] at hd

/-- The shifted accumulator has 19 bits (R122). -/
theorem toNat_shiftRight_13_lt (a : Word) : (a >>> 13).toNat < 2 ^ 19 := by
  have := a.isLt
  rw [BitVec.toNat_ushiftRight, Nat.shiftRight_eq_div_pow]
  omega

/-! ### The bytes READ_PAGE writes -/

/-- A READ_PAGE accepted in `s` has consumed `used` and stands in `u`: it has written BUF below the data
exchanges answered, and its position has consumed at least the answers before it. -/
structure ReadPageSoFar (s u : State) (used : List Answer) : Prop where
  consumed : s.answers = used ++ u.answers
  addr_ix : u.ph = .addr → u.ix.toNat + 1 ≤ used.length
  data_ix : u.ph = .data → u.ix.toNat + 4 ≤ used.length
  untouched : ∀ k, 256 ≤ k ∨ used.length ≤ k + 4 → Memory.read u.buf k = Memory.read s.buf k

/-- One more answer for one more position of READ_PAGE's frame. -/
theorem XferRow.put_readPage_ix {s : State} {d : Nat} {tx : Byte} {put : Byte → State → State} {n : Nat}
    (hr : XferRow s d tx put) (ho : s.opr = 4#3) (ha : s.ph = .addr → s.ix.toNat + 1 ≤ n)
    (hd : s.ph = .data → s.ix.toNat + 4 ≤ n) (rx : Byte) (u : State) :
    ((put rx u).ph = .addr → (put rx u).ix.toNat + 1 ≤ n + 1) ∧
    ((put rx u).ph = .data → (put rx u).ix.toNat + 4 ≤ n + 1) := by
  cases hr with
  | dataRead hp hi _ =>
    have hn := hd hp
    refine ⟨by simp, fun _ => ?_⟩
    bv_omega
  | _ => simp_all

theorem ReadPageSoFar.step {s u v : State} {used : List Answer} (hu : ReadPageSoFar s u used)
    (ho : u.opr = 4#3) (h : TableRow u v) : ∃ used', ReadPageSoFar s v used' := by
  have hbuf := h.buf
  have hkeep (hb : v.buf = u.buf) {k : Nat} {more : List Answer}
      (hk : 256 ≤ k ∨ (used ++ more).length ≤ k + 4) : Memory.read v.buf k = Memory.read s.buf k := by
    rw [hb]
    exact hu.untouched k (hk.imp_right fun h => by simp at h; omega)
  cases h with
  | @ok hc d tx rx put rest hr ha =>
    obtain ⟨haddr, hdata⟩ := hr.put_readPage_ix ho hu.addr_ix hu.data_ix rx (exchanged d tx rx rest u)
    refine ⟨used ++ [.ok rx], ?_, by simpa using haddr, by simpa using hdata, fun k hk => ?_⟩
    · rw [(hr.put_kept _ _).answers_eq, hu.consumed, ha, List.append_assoc]
      rfl
    · obtain hb | ⟨-, hp, hi, v, hb⟩ := hbuf
      · exact hkeep hb hk
      · have hix := hu.data_ix hp
        simp only [List.length_append, List.length_singleton] at hk
        rw [hb, Memory.read_write_other _ _ _ _ (by omega)]
        exact hu.untouched k (by omega)
  | @fault hc d tx put rest hr ha hf =>
    exact ⟨used ++ [.fault], by simp [hu.consumed, ha], by simp, by simp, fun k hk => hkeep rfl hk⟩
  | select | deselectFault | deselectWake | deselectStatus | deselectSize | deselectDone | wake =>
    exact ⟨used, hu.consumed, by simp, by simp, hu.untouched⟩

theorem exec_readPageSoFar (i : Instr) {s t : State} (hi : i.sel = 4#3) (hb : s.busy = false)
    (h : exec i s = .next t) : ∃ used, ReadPageSoFar s t used := by
  refine exec_keeps_opr (P := fun u => ∃ used, ReadPageSoFar s u used) i hb
    ⟨[], rfl, by simp [accepted], by simp [accepted], fun _ _ => rfl⟩ (fun u v _ ho hu huv => ?_) h
  obtain ⟨used, hused⟩ := hu
  exact hused.step (ho.trans hi) huv

end Sys2Proof.Machine

namespace Sys2Proof.Proofs

open Sys2Proof Sys2Proof.Machine

/-- Settles O33: of the four ways an operation can stand, two are in progress and two completed. -/
theorem completionCode : Obligations.CompletionCode := by
  intro i s t hb h
  cases exec_faultSoFar i hb h with
  | none _ htb hc | one _ _ htb hc => exact ⟨fun _ => hc, by simp [htb]⟩
  | completed ev htb hc hw hno => exact ⟨by simp [htb], fun _ => ⟨ev, hw, .inl ⟨hc, hno⟩⟩⟩
  | faulted pre tx htb hc hw hno =>
    exact ⟨by simp [htb], fun _ => ⟨_, hw, .inr ⟨hc, pre, tx, rfl, hno⟩⟩⟩

/-- Settles O34. -/
theorem returnedValue : Obligations.ReturnedValue := by
  intro i s t hb h
  obtain ⟨hwait, hdone⟩ := exec_resVal i hb h
  refine ⟨hwait, fun hd => ?_⟩
  obtain ⟨hstatus, hsize, hother, hfault⟩ := hdone hd
  refine ⟨hstatus, fun hc hk => ⟨hsize hc hk, ?_⟩, hother, hfault⟩
  rw [hsize hc hk]
  exact toNat_shiftRight_13_lt _

/-- Settles O41: each register is left as acceptance left it where the operation's column has no writer. -/
theorem operationFrame : Obligations.OperationFrame := by
  intro i s t hb h
  have hout := exec_sameOutside i hb h
  exact ⟨hout.cfg_eq, hout.host_eq, hout.seen_eq, hout.opr_eq, hout.ar_eq, hout.turns_eq,
    fun hn => exec_field_eq State.sr i hb (fun _ _ ho huv => huv.sr_eq (.inl (ho ▸ hn))) h,
    fun hn => exec_field_eq State.h i hb (fun _ _ ho huv => huv.h_eq (.inl (ho ▸ hn))) h,
    fun hn => exec_field_eq State.acc i hb (fun _ _ ho huv => huv.acc_eq (.inl (ho ▸ hn))) h,
    fun hn => exec_field_eq State.wcnt i hb (fun _ _ ho huv => huv.wcnt_eq (.inl (ho ▸ hn))) h,
    fun hn => exec_field_eq State.draws i hb (fun _ _ ho huv => huv.draws_eq (.inl (ho ▸ hn))) h,
    exec_wire i hb h, exec_answers i hb h⟩

/-- Settles O42. -/
theorem bufferFrame : Obligations.BufferFrame := by
  intro i s t hb h
  refine ⟨fun hn k => ?_, fun hi => ?_⟩
  · have hbuf : t.buf = s.buf := exec_field_eq State.buf i hb (fun u v ho huv => by
      obtain hk | ⟨ho', -⟩ := huv.buf
      · exact hk
      · exact absurd (ho ▸ ho') hn) h
    rw [hbuf]
  · obtain ⟨used, hu⟩ := exec_readPageSoFar i hi hb h
    exact ⟨used, hu.consumed, hu.untouched⟩

end Sys2Proof.Proofs

/-!
PROOF. The transition table, forward: each row is a step the framer takes, and what an exchange row reads.
-/

namespace Sys2Proof.Machine

/-! ### The table, forward -/

/-- How an unfaulted operation ends at DESELECT, by its selector (R85). -/
def deselectEnd (k : Selector) : State → State :=
  if k = 1#3 then completeStatus
  else if k = 3#3 then startWake
  else if k = 7#3 then completeSize
  else complete 0 0

/-- Phase DESELECT differs between the columns only in the operation's own end. -/
theorem framerStep_deselect {s : State} (hp : s.ph = .deselect) :
    framerStep s = deselectRow (deselectEnd s.opr) s := by
  rcases selector_cases s.opr with ho | ho | ho | ho | ho | ho | ho | ho <;>
    rw [framerStep_eq ho, ho] <;>
    simp only [rowsOf_0, rowsOf_1, rowsOf_2, rowsOf_3, rowsOf_4, rowsOf_5, rowsOf_6, rowsOf_7,
      issueCmdRow, readStatusRow, enterUdpdRow, oneByteRow, exitSleepRow, readPageRow, writePageRow,
      erasePageRow, discoverSizeRow, hp] <;> rfl

/-- The deselect of an unfaulted operation. -/
theorem framerStep_deselect_of_unfaulted {s : State} {k : Selector} (hp : s.ph = .deselect)
    (hi : s.ix = 0) (hf : s.flt = false) (ho : s.opr = k) :
    framerStep s = .moved (deselectEnd k (csDeassert s)) := by
  simp [framerStep_deselect hp, deselectRow, hi, hf, ho]

/-- Every row of the table is a step the framer takes. -/
theorem framerStep_of_tableRow {s t : State} (h : TableRow s t) : framerStep s = .moved t := by
  cases h with
  | select hp hi => simp [framerStep_select hp, selectRow, hi, goto, csAssert, logEvent]
  | @ok hc d tx rx put rest hr ha =>
    rw [framerStep_xferRow hr, xfer_ok (s := { s with draws := s.draws + d }) hc ha]
    rfl
  | @fault hc d tx put rest hr ha hf =>
    rw [framerStep_xferRow hr, xfer_fault (s := { s with draws := s.draws + d }) hc ha hf]
    rfl
  | deselectFault hp hi hf =>
    simp [framerStep_deselect hp, deselectRow, hi, hf, faultExit, complete, csDeassert, logEvent]
  | deselectWake hp hi hf ho | deselectStatus hp hi hf ho | deselectSize hp hi hf ho =>
    exact framerStep_deselect_of_unfaulted hp hi hf ho
  | deselectDone hp hi hf ho =>
    obtain ⟨h1, h3, h7⟩ := ho
    rw [framerStep_deselect_of_unfaulted hp hi hf rfl, deselectEnd, if_neg h1, if_neg h3, if_neg h7]
    rfl
  | wake hp hi ho =>
    rw [framerStep_eq ho, rowsOf_3]
    simp [exitSleepRow, hp, wakeRow, hi, complete, spinWake, logEvent]

/-! ### What an exchange row reads and writes, in two runs -/

/-- An exchange row reads the command, the parameters and the position, H in SKIP, and in DATA of
WRITE_PAGE the byte of BUF or the draw. -/
theorem XferRow.congr {s s' : State} {d : Nat} {tx : Byte} {put : Byte → State → State}
    (hr : XferRow s d tx put) (hcfg : s'.cfg = s.cfg) (hopr : s'.opr = s.opr) (har : s'.ar = s.ar)
    (hph : s'.ph = s.ph) (hix : s'.ix = s.ix) (hh : s.ph = .skip → s'.h = s.h)
    (hread : s.opr = 5#3 → s.ix.toNat < 256 →
      Memory.read s'.buf s.ix.toNat = Memory.read s.buf s.ix.toNat)
    (hdraws : s.opr = 5#3 → s.ix.toNat < 256 → Memory.read s.buf s.ix.toNat = none →
      s'.draws = s.draws) : XferRow s' d tx put := by
  cases hr <;> simp only [← hcfg, ← hopr, ← har, ← hph, ← hix] at *
  case dataWrite hp hi ho hv =>
    exact .dataWrite hp hi ho _ ((hread ho (by bv_omega)).trans hv)
  case dataWriteDraw hp hi ho hv =>
    rw [← hdraws ho (by bv_omega) hv]
    exact .dataWriteDraw hp hi ho ((hread ho (by bv_omega)).trans hv)
  case dataWriteLast hv hp hi ho =>
    simp only [hi] at hread
    exact .dataWriteLast hp hi ho _ ((hread ho (by decide)).trans hv)
  case dataWriteLastDraw hv hp hi ho =>
    simp only [hi] at hread hdraws
    rw [← hdraws ho (by decide) hv]
    exact .dataWriteLastDraw hp hi ho ((hread ho (by decide)).trans hv)
  case skip hp hi ho => exact .skip hp (by rwa [hh hp]) ho
  case skipLast hp hi ho => exact .skipLast hp (by rwa [hh hp]) ho
  all_goals constructor <;> assumption

/-- An exchange row leads to one position, whatever the registers. -/
theorem XferRow.put_position {s : State} {d : Nat} {tx : Byte} {put : Byte → State → State}
    (hr : XferRow s d tx put) (rx : Byte) (a b : State) :
    (put rx b).ph = (put rx a).ph ∧ (put rx b).ix = (put rx a).ix := by
  cases hr <;> exact ⟨rfl, rfl⟩

theorem XferRow.put_sameOutside {s : State} {d : Nat} {tx : Byte} {put : Byte → State → State}
    (hr : XferRow s d tx put) (rx : Byte) (u : State) : SameOutside u (put rx u) := by
  cases hr <;> exact ⟨rfl, rfl, rfl, rfl, rfl, rfl⟩

/-- ACC after an exchange row is a function of ACC before it. -/
theorem XferRow.put_acc {s : State} {d : Nat} {tx : Byte} {put : Byte → State → State}
    (hr : XferRow s d tx put) (rx : Byte) {a b : State} (h : b.acc = a.acc) :
    (put rx b).acc = (put rx a).acc := by
  cases hr <;> simp [h]

/-- H after the header has been read is this operation's (R26). -/
theorem XferRow.put_h {s : State} {d : Nat} {tx : Byte} {put : Byte → State → State}
    (hr : XferRow s d tx put) (rx : Byte) {a b : State}
    (h : s.ph = .align ∨ s.ph = .skip → b.h = a.h)
    (hp : (put rx a).ph = .align ∨ (put rx a).ph = .skip) : (put rx b).h = (put rx a).h := by
  cases hr with
  | hdr | hdrLast => rfl
  | align hs => exact h (.inl hs)
  | skip hs | skipLast hs => exact h (.inr hs)
  | _ => simp at hp

/-- SR at the deselect of an answered READ_STATUS is this operation's (R28). -/
theorem XferRow.put_sr {s : State} {d : Nat} {tx : Byte} {put : Byte → State → State}
    (hr : XferRow s d tx put) (ho : s.opr = 1#3) (rx : Byte) {a b : State}
    (hp : (put rx a).ph = .deselect) : (put rx b).sr = (put rx a).sr := by
  cases hr with
  | dataStatus => rfl
  | _ => simp_all

end Sys2Proof.Machine

/-!
PROOF. Isolation (spec/10_state.md R31): two runs of one operation stay at the same point.
-/

namespace Sys2Proof.Machine

/-! ### Two runs of one operation -/

/-- BUF[k] in `u` is a byte that the READ_PAGE in progress, or just completed, has received. -/
def Received (u : State) (k : Nat) : Prop :=
  (u.ph = .data ∧ k < u.ix.toNat) ∨
  (k < 256 ∧ ((u.ph = .deselect ∧ u.flt = false) ∨ (u.busy = false ∧ u.resCode = 0)))

/-- What WRITE_PAGE reads of the past: the bytes of BUF and, if one of them is unwritten, the count of
draws. -/
structure SamePayload (u₁ u₂ : State) : Prop where
  read_eq : ∀ k, k < 256 → Memory.read u₂.buf k = Memory.read u₁.buf k
  draws_eq : u₂.draws = u₁.draws ∨ ∀ k, k < 256 → (Memory.read u₁.buf k).isSome = true

/-- `u₁` and `u₂` stand at the same point of two runs of one operation with the same answers, which began
with the wire histories `w₁` and `w₂`. A register that an earlier operation may have left is the same from
where this operation has written it. -/
structure SameRun (w₁ w₂ : List WireEvent) (u₁ u₂ : State) : Prop where
  cfg_eq : u₂.cfg = u₁.cfg
  answers_eq : u₂.answers = u₁.answers
  opr_eq : u₂.opr = u₁.opr
  ar_eq : u₂.ar = u₁.ar
  busy_eq : u₂.busy = u₁.busy
  ph_eq : u₂.ph = u₁.ph
  ix_eq : u₂.ix = u₁.ix
  flt_eq : u₂.flt = u₁.flt
  acc_eq : u₂.acc = u₁.acc
  resValid_eq : u₂.resValid = u₁.resValid
  wire : ∃ ev, u₁.wire = w₁ ++ ev ∧ u₂.wire = w₂ ++ ev
  cs_eq : u₁.ph ≠ .select → u₂.cs = u₁.cs
  h_eq : u₁.ph = .align ∨ u₁.ph = .skip → u₂.h = u₁.h
  sr_eq : u₁.opr = 1#3 → u₁.ph = .deselect → u₁.flt = false → u₂.sr = u₁.sr
  result_eq : u₁.busy = false → u₂.resCode = u₁.resCode ∧ u₂.resVal = u₁.resVal
  payload : u₁.opr = 5#3 → SamePayload u₁ u₂
  page : u₁.opr = 4#3 → ∀ k, Received u₁ k → Memory.read u₂.buf k = Memory.read u₁.buf k

section

variable {w₁ w₂ : List WireEvent} {u₁ u₂ v₁ : State}

theorem SamePayload.symm (h : SamePayload u₁ u₂) : SamePayload u₂ u₁ where
  read_eq k hk := (h.read_eq k hk).symm
  draws_eq := h.draws_eq.imp Eq.symm fun hall k hk => by rw [h.read_eq k hk]; exact hall k hk

/-- Both runs draw alike at an exchange. -/
theorem SamePayload.exchanged (h : SamePayload u₁ u₂) {t₁ t₂ : State} {d : Nat} (hb₁ : t₁.buf = u₁.buf)
    (hb₂ : t₂.buf = u₂.buf) (hd₁ : t₁.draws = u₁.draws + d) (hd₂ : t₂.draws = u₂.draws + d) :
    SamePayload t₁ t₂ where
  read_eq := by rw [hb₁, hb₂]; exact h.read_eq
  draws_eq := by
    rw [hd₁, hd₂, hb₁]
    exact h.draws_eq.imp_left fun he => by rw [he]

theorem SameRun.symm (hs : SameRun w₁ w₂ u₁ u₂) : SameRun w₂ w₁ u₂ u₁ where
  cfg_eq := hs.cfg_eq.symm
  answers_eq := hs.answers_eq.symm
  opr_eq := hs.opr_eq.symm
  ar_eq := hs.ar_eq.symm
  busy_eq := hs.busy_eq.symm
  ph_eq := hs.ph_eq.symm
  ix_eq := hs.ix_eq.symm
  flt_eq := hs.flt_eq.symm
  acc_eq := hs.acc_eq.symm
  resValid_eq := hs.resValid_eq.symm
  wire := hs.wire.imp fun _ h => h.symm
  cs_eq hp := (hs.cs_eq (hs.ph_eq ▸ hp)).symm
  h_eq hp := (hs.h_eq (hs.ph_eq ▸ hp)).symm
  sr_eq ho hp hf := (hs.sr_eq (hs.opr_eq ▸ ho) (hs.ph_eq ▸ hp) (hs.flt_eq ▸ hf)).symm
  result_eq hd := (hs.result_eq (hs.busy_eq ▸ hd)).imp Eq.symm Eq.symm
  payload ho := (hs.payload (hs.opr_eq ▸ ho)).symm
  page ho k hk := by
    refine (hs.page (hs.opr_eq ▸ ho) k ?_).symm
    refine hk.imp (fun h => by rwa [hs.ph_eq, hs.ix_eq] at h) (And.imp_right (Or.imp ?_ ?_))
    · rw [hs.ph_eq, hs.flt_eq]; exact id
    · rintro ⟨hd, hc⟩
      rw [hs.busy_eq] at hd
      exact ⟨hd, (hs.result_eq hd).1 ▸ hc⟩

theorem SameRun.wire_concat (hs : SameRun w₁ w₂ u₁ u₂) (e : WireEvent) :
    ∃ ev, u₁.wire ++ [e] = w₁ ++ ev ∧ u₂.wire ++ [e] = w₂ ++ ev := by
  obtain ⟨ev, h₁, h₂⟩ := hs.wire
  exact ⟨ev ++ [e], by rw [h₁, List.append_assoc], by rw [h₂, List.append_assoc]⟩

/-- The exchange at hand is the same in both runs. -/
theorem SameRun.xferRow (hs : SameRun w₁ w₂ u₁ u₂) {d : Nat} {tx : Byte} {put : Byte → State → State}
    (hr : XferRow u₁ d tx put) : XferRow u₂ d tx put := by
  refine hr.congr hs.cfg_eq hs.opr_eq hs.ar_eq hs.ph_eq hs.ix_eq (fun hp => hs.h_eq (.inr hp))
    (fun ho hk => (hs.payload ho).read_eq _ hk) (fun ho hk hn => ?_)
  refine (hs.payload ho).draws_eq.resolve_right fun hall => ?_
  have := hall _ hk
  simp [hn] at this

/-- The bytes READ_PAGE has received are the same after an exchange row. -/
theorem SameRun.page_put (hs : SameRun w₁ w₂ u₁ u₂) (hb : u₁.busy = true) (ho : u₁.opr = 4#3) {d : Nat}
    {tx : Byte} {put : Byte → State → State} (hr : XferRow u₁ d tx put) (rx : Byte) {a b : State}
    (ha : a.buf = u₁.buf) (hab : a.busy = u₁.busy) (hb' : b.buf = u₂.buf) (k : Nat)
    (hk : Received (put rx a) k) :
    Memory.read (put rx b).buf k = Memory.read (put rx a).buf k := by
  have hpage := hs.page ho k
  cases hr with
  | dataRead hp hi _ =>
    have hk : k < (u₁.ix + 1).toNat := by simpa [Received, hab, hb] using hk
    simp only [ha, hb', Memory.read_write]
    split_ifs with hkx
    · rfl
    · exact hpage (.inl ⟨hp, by bv_omega⟩)
  | dataReadLast hp hi _ =>
    have hk : k < 256 := by simp [Received, hab, hb] at hk; exact hk.1
    simp only [ha, hb', Memory.read_write]
    split_ifs with hkx
    · rfl
    · exact hpage (.inl ⟨hp, by rw [hi]; change k < 255; omega⟩)
  | opcToDeselect | opcToData | opcToHdr | addr2ToDeselect | dataStatus | dataWrite | dataWriteDraw
  | dataWriteLast | dataWriteLastDraw | hdr | hdrLast | align | skip | skipLast | size | sizeLast =>
    simp_all
  | opcToAddr | addr0 | addr1 | addr2ToData => simp [Received, hab, hb] at hk

/-- An exchange answered `Ok(rx)` leads both runs to the same point. -/
theorem SameRun.put (hs : SameRun w₁ w₂ u₁ u₂) (hb : u₁.busy = true) {d : Nat} {tx : Byte}
    {put : Byte → State → State} (hr : XferRow u₁ d tx put) (rx : Byte) (rest : List Answer) :
    SameRun w₁ w₂ (put rx (exchanged d tx rx rest u₁)) (put rx (exchanged d tx rx rest u₂)) := by
  have ho₁ := hr.put_sameOutside rx (exchanged d tx rx rest u₁)
  have ho₂ := hr.put_sameOutside rx (exchanged d tx rx rest u₂)
  have hk₁ := hr.put_kept rx (exchanged d tx rx rest u₁)
  have hk₂ := hr.put_kept rx (exchanged d tx rx rest u₂)
  have hpos := hr.put_position rx (exchanged d tx rx rest u₁) (exchanged d tx rx rest u₂)
  have hns : u₁.ph ≠ .select := fun hp => by
    obtain ⟨hsel, -⟩ := hr.phase
    simp [hp, Phase.selected] at hsel
  constructor
  case cfg_eq => exact (ho₂.cfg_eq.trans hs.cfg_eq).trans ho₁.cfg_eq.symm
  case answers_eq => exact hk₂.answers_eq.trans hk₁.answers_eq.symm
  case opr_eq => exact (ho₂.opr_eq.trans hs.opr_eq).trans ho₁.opr_eq.symm
  case ar_eq => exact (ho₂.ar_eq.trans hs.ar_eq).trans ho₁.ar_eq.symm
  case busy_eq => exact (hk₂.busy_eq.trans hs.busy_eq).trans hk₁.busy_eq.symm
  case ph_eq => exact hpos.1
  case ix_eq => exact hpos.2
  case flt_eq => exact (hk₂.flt_eq.trans hs.flt_eq).trans hk₁.flt_eq.symm
  case acc_eq => exact hr.put_acc rx hs.acc_eq
  case resValid_eq => exact (hk₂.resValid_eq.trans hs.resValid_eq).trans hk₁.resValid_eq.symm
  case wire => rw [hk₁.wire_eq, hk₂.wire_eq]; exact hs.wire_concat _
  case cs_eq => exact fun _ => (hk₂.cs_eq.trans (hs.cs_eq hns)).trans hk₁.cs_eq.symm
  case h_eq => exact hr.put_h rx hs.h_eq
  case sr_eq => exact fun ho hp _ => hr.put_sr (ho₁.opr_eq.symm.trans ho) rx hp
  case result_eq => exact fun hd => absurd (hd.symm.trans (hk₁.busy_eq.trans hb)) Bool.false_ne_true
  case payload =>
    intro ho
    have ho : u₁.opr = 5#3 := ho₁.opr_eq.symm.trans ho
    have hbuf (u : State) : (put rx u).buf = u.buf :=
      (hr.put_buf rx u).resolve_right fun h => by simp [ho] at h
    exact (hs.payload ho).exchanged (hbuf _) (hbuf _) hk₁.draws_eq hk₂.draws_eq
  case page =>
    exact fun ho => hs.page_put hb (ho₁.opr_eq.symm.trans ho) hr rx
      (a := exchanged d tx rx rest u₁) (b := exchanged d tx rx rest u₂) rfl rfl rfl

theorem SameRun.csDeassert (hs : SameRun w₁ w₂ u₁ u₂) :
    SameRun w₁ w₂ (csDeassert u₁) (csDeassert u₂) :=
  { hs with
    wire := hs.wire_concat _
    cs_eq := fun _ => rfl
    payload := fun ho => (hs.payload ho).exchanged (d := 0) rfl rfl rfl rfl }

theorem SameRun.spinWake (hs : SameRun w₁ w₂ u₁ u₂) :
    SameRun w₁ w₂ (spinWake u₁) (spinWake u₂) :=
  { hs with
    wire := by
      simp only [Machine.spinWake, logEvent, hs.cfg_eq]
      exact hs.wire_concat _
    payload := fun ho => (hs.payload ho).exchanged (d := 0) rfl rfl rfl rfl }

/-- Both runs complete with one code and value, READ_PAGE with code 0 only when it has received all. -/
theorem SameRun.complete (hs : SameRun w₁ w₂ u₁ u₂) (hp : u₁.ph ≠ .select) {code : BitVec 2}
    (hall : u₁.opr = 4#3 → code = 0 → ∀ k, k < 256 → Received u₁ k) {val₁ val₂ : Word}
    (hval : val₂ = val₁) : SameRun w₁ w₂ (complete code val₁ u₁) (complete code val₂ u₂) :=
  { hs with
    busy_eq := rfl, ph_eq := rfl, resValid_eq := rfl
    cs_eq := fun _ => hs.cs_eq hp
    h_eq := by simp [Machine.complete]
    sr_eq := by simp [Machine.complete]
    result_eq := fun _ => ⟨rfl, hval⟩
    payload := fun ho => (hs.payload ho).exchanged (d := 0) rfl rfl rfl rfl
    page := fun ho k hk => by
      simp only [Received, Machine.complete, reduceCtorEq, false_and, false_or, true_and] at hk
      exact hs.page ho k (hall ho hk.2 k hk.1) }

/-- A framer step of one run is matched by a framer step of the other. -/
theorem SameRun.step (hs : SameRun w₁ w₂ u₁ u₂) (hb : u₁.busy = true) (h : TableRow u₁ v₁) :
    ∃ v₂, TableRow u₂ v₂ ∧ SameRun w₁ w₂ v₁ v₂ := by
  cases h with
  | select hp hi =>
    refine ⟨_, .select (hs.ph_eq.trans hp) (hs.ix_eq.trans hi), ?_⟩
    exact { hs with
      ph_eq := rfl, ix_eq := rfl
      wire := hs.wire_concat _
      cs_eq := fun _ => rfl
      h_eq := by simp
      sr_eq := by simp
      payload := fun ho => (hs.payload ho).exchanged (d := 0) rfl rfl rfl rfl
      page := by simp [Received, hb] }
  | @ok hc d tx rx put rest hr ha =>
    have hc₂ : u₂.cs = true := (hs.cs_eq fun hp => by
      obtain ⟨hsel, -⟩ := hr.phase
      simp [hp, Phase.selected] at hsel).trans hc
    exact ⟨_, .ok hc₂ (hs.xferRow hr) (hs.answers_eq.trans ha), hs.put hb hr rx rest⟩
  | @fault hc d tx put rest hr ha hf =>
    have hcs : u₂.cs = u₁.cs := hs.cs_eq fun hp => by
      obtain ⟨hsel, -⟩ := hr.phase
      simp [hp, Phase.selected] at hsel
    refine ⟨_, .fault (hcs.trans hc) (hs.xferRow hr) (hs.answers_eq.trans ha) (hs.cfg_eq ▸ hf), ?_⟩
    exact { hs with
      answers_eq := rfl, flt_eq := rfl, ph_eq := rfl, ix_eq := rfl
      wire := hs.wire_concat _
      cs_eq := fun _ => hcs
      h_eq := by simp
      sr_eq := by simp
      payload := fun ho => (hs.payload ho).exchanged rfl rfl rfl rfl
      page := by simp [Received, hb] }
  | deselectWake hp hi hf ho =>
    refine ⟨_, .deselectWake (hs.ph_eq.trans hp) (hs.ix_eq.trans hi) (hs.flt_eq.trans hf)
      (hs.opr_eq.trans ho), ?_⟩
    exact { hs with
      ph_eq := rfl, ix_eq := rfl
      wire := hs.wire_concat _
      cs_eq := fun _ => rfl
      h_eq := by simp
      sr_eq := by simp
      payload := by simp [ho]
      page := by simp [ho] }
  | deselectFault hp hi hf =>
    exact ⟨_, .deselectFault (hs.ph_eq.trans hp) (hs.ix_eq.trans hi) (hs.flt_eq.trans hf),
      hs.csDeassert.complete (by simp [hp]) (by simp) rfl⟩
  | deselectStatus hp hi hf ho =>
    exact ⟨_, .deselectStatus (hs.ph_eq.trans hp) (hs.ix_eq.trans hi) (hs.flt_eq.trans hf)
        (hs.opr_eq.trans ho),
      hs.csDeassert.complete (by simp [hp]) (by simp [ho])
        (congrArg statusResult (hs.sr_eq ho hp hf))⟩
  | deselectSize hp hi hf ho =>
    exact ⟨_, .deselectSize (hs.ph_eq.trans hp) (hs.ix_eq.trans hi) (hs.flt_eq.trans hf)
        (hs.opr_eq.trans ho),
      hs.csDeassert.complete (by simp [hp]) (by simp [ho]) (congrArg sizeResult hs.acc_eq)⟩
  | deselectDone hp hi hf ho =>
    exact ⟨_, .deselectDone (hs.ph_eq.trans hp) (hs.ix_eq.trans hi) (hs.flt_eq.trans hf)
        (hs.opr_eq ▸ ho),
      hs.csDeassert.complete (by simp [hp]) (fun _ _ k hk => .inr ⟨hk, .inl ⟨hp, hf⟩⟩) rfl⟩
  | wake hp hi ho =>
    exact ⟨_, .wake (hs.ph_eq.trans hp) (hs.ix_eq.trans hi) (hs.opr_eq.trans ho),
      hs.spinWake.complete (by simp [hp]) (by simp [ho]) rfl⟩

/-- Both runs come to the same point: they take the same steps and wait at the same exchange. -/
theorem SameRun.runRows (n : Nat) {t₁ t₂ : State} (hs : SameRun w₁ w₂ u₁ u₂) (hb : u₁.busy = true)
    (h₁ : runRows framerStep n u₁ = .next t₁) (h₂ : runRows framerStep n u₂ = .next t₂) :
    SameRun w₁ w₂ t₁ t₂ := by
  induction n generalizing u₁ u₂ with
  | zero => cases h₁; cases h₂; exact hs
  | succ n ih =>
    cases hf₁ : framerStep u₁ with
    | moved v₁ =>
      obtain ⟨v₂, hrow, hv⟩ := hs.step hb (tableRow_of_framerStep hf₁)
      have hf₂ := framerStep_of_tableRow hrow
      obtain hvb | hvb := Bool.eq_false_or_eq_true v₁.busy
      · rw [runRows_moved n hf₁ hvb] at h₁
        rw [runRows_moved n hf₂ (hv.busy_eq.trans hvb)] at h₂
        exact ih hv hvb h₁ h₂
      · rw [runRows_done n hf₁ hvb] at h₁
        rw [runRows_done n hf₂ (hv.busy_eq.trans hvb)] at h₂
        cases h₁; cases h₂; exact hv
    | waiting =>
      rw [runRows_waiting _ hf₁] at h₁
      cases hf₂ : framerStep u₂ with
      | moved v₂ =>
        obtain ⟨v₁, hrow, -⟩ := hs.symm.step (hs.busy_eq.trans hb) (tableRow_of_framerStep hf₂)
        rw [framerStep_of_tableRow hrow] at hf₁
        cases hf₁
      | waiting =>
        rw [runRows_waiting _ hf₂] at h₂
        cases h₁; cases h₂; exact hs
      | noRow => simp [Machine.runRows, hf₂] at h₂
    | noRow => simp [Machine.runRows, hf₁] at h₁

end

/-- Acceptance of one command in two idle states begins two runs of one operation. -/
theorem SameRun.accepted {i : Instr} {s₁ s₂ : State} (hcfg : s₂.cfg = s₁.cfg)
    (hans : s₂.answers = s₁.answers) (hpay : i.sel = 5#3 → SamePayload s₁ s₂) :
    SameRun s₁.wire s₂.wire (accepted i s₁) (accepted i s₂) where
  cfg_eq := hcfg
  answers_eq := hans
  opr_eq := rfl
  ar_eq := rfl
  busy_eq := rfl
  ph_eq := rfl
  ix_eq := rfl
  flt_eq := rfl
  acc_eq := rfl
  resValid_eq := rfl
  wire := ⟨[], by simp [Machine.accepted]⟩
  cs_eq hp := absurd rfl hp
  h_eq := by simp [Machine.accepted]
  sr_eq := by simp [Machine.accepted]
  result_eq := by simp [Machine.accepted]
  payload ho := (hpay ho).exchanged (d := 0) rfl rfl rfl rfl
  page := by simp [Received, Machine.accepted]

/-- Two operations of one command, with the same answers and turns, end at the same point. -/
theorem exec_sameRun (i : Instr) {s₁ s₂ t₁ t₂ : State} (hb₁ : s₁.busy = false) (hb₂ : s₂.busy = false)
    (hturns : s₂.turns = s₁.turns)
    (hs : SameRun s₁.wire s₂.wire (accepted i s₁) (accepted i s₂))
    (h₁ : exec i s₁ = .next t₁) (h₂ : exec i s₂ = .next t₂) : SameRun s₁.wire s₂.wire t₁ t₂ := by
  rw [exec_eq_runRows_accepted i hb₁] at h₁
  rw [exec_eq_runRows_accepted i hb₂, hturns] at h₂
  exact hs.runRows _ rfl h₁ h₂

/-- No row of the table leads back to SELECT. -/
theorem TableRow.ph_ne_select {s t : State} (h : TableRow s t) : t.ph ≠ .select := by
  cases h with
  | ok hc hr ha => cases hr <;> simp
  | _ => simp

/-- An operation whose acceptance is not the whole step leaves SELECT in it. -/
theorem exec_ph_ne_select (i : Instr) {s t : State} (hb : s.busy = false)
    (hturn : s.turns.head? ≠ some 0) (h : exec i s = .next t) : t.ph ≠ .select := by
  have hfirst : framerStep (accepted i s) = .moved (goto .opc 0 (csAssert (accepted i s))) := by
    rw [framerStep_select rfl, selectRow]
    exact if_pos rfl
  obtain ⟨n, hn⟩ : ∃ n, s.turns.headD maxFramerSteps = n + 1 := by
    match hts : s.turns, hturn with
    | [], _ => exact ⟨2062, rfl⟩
    | (k + 1) :: _, _ => exact ⟨k, rfl⟩
    | 0 :: _, hturn => exact absurd rfl hturn
  rw [exec_eq_runRows_accepted i hb, hn, runRows_moved n hfirst rfl] at h
  exact runRows_keeps (P := fun u => u.ph ≠ .select)
    (fun u v _ _ huv => (tableRow_of_framerStep huv).ph_ne_select) n rfl (by simp) h

end Sys2Proof.Machine

namespace Sys2Proof.Proofs

open Sys2Proof Sys2Proof.Machine

/-- Settles O43: from acceptance on the two runs stay at the same point, for every register is written by
the operation before it reads or returns it. -/
theorem operationIgnoresThePast : Obligations.OperationIgnoresThePast := by
  intro i s₁ s₂ t₁ t₂ hb₁ hb₂ hcfg hans hturns hpay h₁ h₂
  have hsame : i.sel = 5#3 → SamePayload s₁ s₂ := fun ho =>
    ⟨fun k hk => ((hpay ho).1 k hk).symm, (hpay ho).2.imp_left Eq.symm⟩
  have hs := exec_sameRun i hb₁ hb₂ hturns.symm (.accepted hcfg.symm hans.symm hsame) h₁ h₂
  have hopr := (exec_sameOutside i hb₁ h₁).opr_eq
  refine ⟨hs.wire, hs.busy_eq.symm, hs.ph_eq.symm, hs.ix_eq.symm,
    fun hn => (hs.cs_eq (exec_ph_ne_select i hb₁ hn h₁)).symm, hs.flt_eq.symm, hs.acc_eq.symm,
    hs.resValid_eq.symm, hs.answers_eq.symm, fun hd => ?_, fun ho hd hc k hk => ?_⟩
  · obtain ⟨hcode, hval⟩ := hs.result_eq hd
    exact ⟨hcode.symm, hval.symm⟩
  · exact (hs.page (hopr.trans ho) k (.inr ⟨hk, .inr ⟨hd, hc⟩⟩)).symm

end Sys2Proof.Proofs

/-!
PROOF. The address bytes (spec/20_memory.md R41): the ignored operand byte reaches none of them.
-/

namespace Sys2Proof.Machine

/-! ### The address bytes of an operand -/

@[simp] theorem addrHi_append (ign : Byte) (addr : FlashAddr) :
    addrHi (ign ++ addr) = addr.extractLsb' 16 8 :=
  BitVec.extractLsb'_append_eq_of_add_le (by decide)

@[simp] theorem addrMid_append (ign : Byte) (addr : FlashAddr) :
    addrMid (ign ++ addr) = addr.extractLsb' 8 8 :=
  BitVec.extractLsb'_append_eq_of_add_le (by decide)

@[simp] theorem addrLo_append (ign : Byte) (addr : FlashAddr) :
    addrLo (ign ++ addr) = addr.extractLsb' 0 8 :=
  BitVec.extractLsb'_append_eq_of_add_le (by decide)

end Sys2Proof.Machine

namespace Sys2Proof.Proofs

open Sys2Proof Sys2Proof.Machine

/-- Settles O6: each byte is a slice of the address alone, and a slice is a shift and a mask. -/
theorem addressBytesOfOperand : Obligations.AddressBytesOfOperand := by
  intro ign addr
  rw [addrHi_append, addrMid_append, addrLo_append]
  simp [BitVec.extractLsb'_toNat, Nat.shiftRight_eq_div_pow]

end Sys2Proof.Proofs

/-!
PROOF. The command word (spec/30_encoding.md R60 to R62, R68): decoder and encoder are inverse.
-/

namespace Sys2Proof

/-- The operation of a selector, for any operand. -/
theorem decode_of_sel {w : CmdWord} {k : Selector} (h : w.extractLsb' 32 3 = k) :
    decode w = decodeFields k (cmdArg w) := by
  rw [decode, cmdSel, h]

/-- ISSUE_CMD's two operand fields, read back. -/
theorem argFields_of_opcodeOperand (ign : BitVec 24) (opb : Byte) :
    argAboveOpb (ign ++ opb) = ign ∧ argOpb (ign ++ opb) = opb :=
  ⟨BitVec.extractLsb'_append_eq_left, BitVec.extractLsb'_append_eq_right⟩

/-- A page operation's two operand fields, read back. -/
theorem argFields_of_pageOperand (ign : Byte) (addr : FlashAddr) :
    argHigh (ign ++ addr) = ign ∧ argAddr (ign ++ addr) = addr :=
  ⟨BitVec.extractLsb'_append_eq_left, BitVec.extractLsb'_append_eq_right⟩

/-- Selector and operand name the operation they were taken from (R61, R62). -/
theorem decodeFields_sel_arg (i : Instr) : decodeFields i.sel i.arg = i := by
  cases i with
  | issueCmd ign opb =>
    obtain ⟨hign, hopb⟩ := argFields_of_opcodeOperand ign opb
    exact congrArg₂ Instr.issueCmd hign hopb
  | readPage ign addr | writePage ign addr | erasePage ign addr =>
    obtain ⟨hign, haddr⟩ := argFields_of_pageOperand ign addr
    exact congrArg₂ _ hign haddr
  | readStatus | enterUdpd | exitSleep | discoverSize => rfl

end Sys2Proof

namespace Sys2Proof.Proofs

open Sys2Proof Sys2Proof.Machine

/-- Settles O1: SEL and ARG are read back from the word, and each operand field from ARG. -/
theorem decodeEncode : Obligations.DecodeEncode := by
  intro i
  obtain ⟨hsel, harg⟩ := Laws.fields_of_append i.sel i.arg
  rw [encode, decode, hsel, harg, decodeFields_sel_arg]

/-- Settles O2: the two fields of the command word are adjacent and cover it. -/
theorem encodeDecode : Obligations.EncodeDecode := by
  intro w
  rw [encode, decode_sel, decode_arg]
  exact (BitVec.extractLsb'_append_extractLsb'_eq_extractLsb' rfl).trans BitVec.extractLsb'_eq_self

/-- Settles O3: the decoder's branch is the one of the selector. -/
theorem selectorNamesOperation : Obligations.SelectorNamesOperation := fun _ =>
  ⟨fun h => ⟨_, _, decode_of_sel h⟩, fun h => ⟨_, decode_of_sel h⟩, fun h => ⟨_, decode_of_sel h⟩,
    fun h => ⟨_, decode_of_sel h⟩, fun h => ⟨_, _, decode_of_sel h⟩, fun h => ⟨_, _, decode_of_sel h⟩,
    fun h => ⟨_, _, decode_of_sel h⟩, fun h => ⟨_, decode_of_sel h⟩⟩

/-- Settles O4: each word is a literal, and the decoder computes. -/
theorem sampleCommandWords : Obligations.SampleCommandWords := by
  unfold Obligations.SampleCommandWords
  decide

end Sys2Proof.Proofs

/-!
PROOF. A listed position has a row (spec/40_framing.md R85): an operation offered to an idle framer always
answers, from whatever state.
-/

namespace Sys2Proof.Machine

/-! ### A listed position has a row -/

/-- A selected position that the table lists, before DESELECT, has an exchange row. -/
theorem exists_xferRow_of_listed {s : State} (hl : s.listed = true) (hsel : s.ph.selected = true)
    (hd : s.ph ≠ .deselect) : ∃ d tx put, XferRow s d tx put := by
  have hlast {n : Index} (h : s.ix < n) : s.ix < n - 1 ∨ s.ix = n - 1 := by bv_omega
  cases hp : s.ph with simp [State.listed, Phase.selected, hp] at hl hsel hd
  | opc =>
    rcases selector_cases s.opr with ho | ho | ho | ho | ho | ho | ho | ho
    · exact ⟨_, _, _, .opcToDeselect hp hl (by simp [ho])⟩
    · exact ⟨_, _, _, .opcToData hp hl ho⟩
    · exact ⟨_, _, _, .opcToDeselect hp hl (by simp [ho])⟩
    · exact ⟨_, _, _, .opcToDeselect hp hl (by simp [ho])⟩
    · exact ⟨_, _, _, .opcToAddr hp hl (by simp [ho])⟩
    · exact ⟨_, _, _, .opcToAddr hp hl (by simp [ho])⟩
    · exact ⟨_, _, _, .opcToAddr hp hl (by simp [ho])⟩
    · exact ⟨_, _, _, .opcToHdr hp hl ho⟩
  | addr =>
    obtain ⟨ho, hi⟩ := hl
    obtain hi | hi | hi : s.ix = 0 ∨ s.ix = 1 ∨ s.ix = 2 := by bv_omega
    · exact ⟨_, _, _, .addr0 hp hi (by tauto)⟩
    · exact ⟨_, _, _, .addr1 hp hi (by tauto)⟩
    · obtain ho | ho := ho
      · exact ⟨_, _, _, .addr2ToData hp hi ho⟩
      · exact ⟨_, _, _, .addr2ToDeselect hp hi ho⟩
  | data =>
    obtain ⟨ho, hi⟩ | ⟨ho | ho, hi⟩ := hl
    · exact ⟨_, _, _, .dataStatus hp hi ho⟩
    · obtain hi | hi := hlast hi
      · exact ⟨_, _, _, .dataRead hp hi ho⟩
      · exact ⟨_, _, _, .dataReadLast hp hi ho⟩
    · obtain hi | hi := hlast hi
      · cases hv : Memory.read s.buf s.ix.toNat with
        | some v => exact ⟨_, _, _, .dataWrite hp hi ho v hv⟩
        | none => exact ⟨_, _, _, .dataWriteDraw hp hi ho hv⟩
      · cases hv : Memory.read s.buf 255 with
        | some v => exact ⟨_, _, _, .dataWriteLast hp hi ho v hv⟩
        | none => exact ⟨_, _, _, .dataWriteLastDraw hp hi ho hv⟩
  | hdr =>
    obtain ⟨ho, hi⟩ := hl
    obtain hi | hi := hlast hi
    · exact ⟨_, _, _, .hdr hp hi ho⟩
    · exact ⟨_, _, _, .hdrLast hp hi ho⟩
  | align => exact ⟨_, _, _, .align hp hl.2 hl.1⟩
  | skip =>
    obtain ⟨ho, hi⟩ := hl
    obtain hi | hi := hlast hi
    · exact ⟨_, _, _, .skip hp hi ho⟩
    · exact ⟨_, _, _, .skipLast hp hi ho⟩
  | size =>
    obtain ⟨ho, hi⟩ := hl
    obtain hi | hi := hlast hi
    · exact ⟨_, _, _, .size hp hi ho⟩
    · exact ⟨_, _, _, .sizeLast hp hi ho⟩

/-- DESELECT at index 0 has a row. -/
theorem exists_tableRow_of_deselect {s : State} (hp : s.ph = .deselect) (hi : s.ix = 0) :
    ∃ t, TableRow s t := by
  obtain hf | hf := Bool.eq_false_or_eq_true s.flt
  · exact ⟨_, .deselectFault hp hi hf⟩
  · by_cases h1 : s.opr = 1#3
    · exact ⟨_, .deselectStatus hp hi hf h1⟩
    by_cases h3 : s.opr = 3#3
    · exact ⟨_, .deselectWake hp hi hf h3⟩
    by_cases h7 : s.opr = 7#3
    · exact ⟨_, .deselectSize hp hi hf h7⟩
    exact ⟨_, .deselectDone hp hi hf ⟨h1, h3, h7⟩⟩

/-- At a listed position, with CS = 1 in a selected phase, the framer has a step or waits. -/
theorem framerStep_ne_noRow {s : State} (hl : s.listed = true) (hc : s.ph.selected = true → s.cs = true) :
    framerStep s ≠ .noRow := by
  have hrow : (∃ t, TableRow s t) → framerStep s ≠ .noRow := by
    rintro ⟨t, ht⟩
    simp [framerStep_of_tableRow ht]
  have hxfer : s.ph.selected = true → s.ph ≠ .deselect → framerStep s ≠ .noRow := by
    intro hsel hd
    obtain ⟨d, tx, put, hr⟩ := exists_xferRow_of_listed hl hsel hd
    rw [framerStep_xferRow hr, Ne, xfer_eq_noRow]
    simp [hc hsel]
  cases hp : s.ph with simp only [State.listed, hp, Bool.and_eq_true, decide_eq_true_eq] at hl
  | idle => cases hl
  | select => exact hrow ⟨_, .select hp hl⟩
  | deselect => exact hrow (exists_tableRow_of_deselect hp hl)
  | wake => exact hrow ⟨_, .wake hp hl.2 hl.1⟩
  | opc | addr | data | hdr | align | skip | size => exact hxfer (by rw [hp]; rfl) (by simp [hp])

/-- The part of the invariant that the next row rests on: while BUSY = 1 the position is listed, and CS = 1
in a selected phase. -/
structure HasRow (s : State) : Prop where
  listed : s.busy = true → s.listed = true
  cs : s.busy = true → s.ph.selected = true → s.cs = true

theorem HasRow.ne_noRow {s : State} (hs : HasRow s) (hb : s.busy = true) : framerStep s ≠ .noRow :=
  framerStep_ne_noRow (hs.listed hb) (hs.cs hb)

theorem HasRow.accepted (i : Instr) (s : State) : HasRow (accepted i s) :=
  ⟨fun _ => rfl, fun _ hsel => nomatch hsel⟩

/-- Every row of the table leads to a position with a row, or completes the operation. -/
theorem TableRow.hasRow {s t : State} (h : TableRow s t) : HasRow t := by
  cases h with
  | select => exact ⟨fun _ => rfl, fun _ _ => rfl⟩
  | @ok hc d tx rx put rest hr ha =>
    obtain ⟨hl, -⟩ := hr.put_listed rx (exchanged d tx rx rest s) rfl rfl
    exact ⟨fun _ => hl, fun _ _ => (hr.put_kept _ _).cs_eq.trans hc⟩
  | fault hc => exact ⟨fun _ => rfl, fun _ _ => hc⟩
  | deselectWake hp hi hf ho => exact ⟨fun _ => by simp [State.listed, ho], fun _ hsel => nomatch hsel⟩
  | deselectFault | deselectStatus | deselectSize | deselectDone | wake =>
    exact ⟨(nomatch ·), (nomatch ·)⟩

end Sys2Proof.Machine

/-!
PROOF. The ignored bits (spec/30_encoding.md R62, spec/10_state.md R16): two runs of one operation whose
operands differ only in them differ only in AR.
-/

namespace Sys2Proof.Machine

/-! ### What an operation reads of its operand -/

/-- `a` and `a'` agree in the operand bits that the operation of selector `k` reads (R62): OPB of
ISSUE_CMD, ADDR of a page operation, nothing of the others. -/
structure SameOperand (k : Selector) (a a' : Word) : Prop where
  opb : k = 0#3 → addrLo a' = addrLo a
  addr : k = 4#3 ∨ k = 5#3 ∨ k = 6#3 →
    a'.extractLsb' 16 8 = a.extractLsb' 16 8 ∧ a'.extractLsb' 8 8 = a.extractLsb' 8 8 ∧
      a'.extractLsb' 0 8 = a.extractLsb' 0 8

theorem SameOperand.symm {k : Selector} {a a' : Word} (h : SameOperand k a a') : SameOperand k a' a where
  opb hk := (h.opb hk).symm
  addr hk := by
    obtain ⟨hhi, hmid, hlo⟩ := h.addr hk
    exact ⟨hhi.symm, hmid.symm, hlo.symm⟩

theorem SameOperand.opByte {k : Selector} {a a' : Word} (h : SameOperand k a a') (c : Config) :
    opByte c k a' = opByte c k a := by
  by_cases hk : k = 0#3
  · simp only [Machine.opByte, if_pos hk, h.opb hk]
  · simp only [Machine.opByte, if_neg hk]

/-- OPB is ISSUE_CMD's whole operand but for the ignored bits. -/
theorem sameOperand_issueCmd (g g' : BitVec 24) (o : Byte) : SameOperand 0#3 (g ++ o) (g' ++ o) where
  opb _ := BitVec.extractLsb'_append_eq_right.trans BitVec.extractLsb'_append_eq_right.symm
  addr h := by simp at h

/-- ADDR is a page operation's whole operand but for the ignored bits. -/
theorem sameOperand_page {k : Selector} (hk : k ≠ 0#3) (g g' : Byte) (a : FlashAddr) :
    SameOperand k (g ++ a) (g' ++ a) where
  opb h := absurd h hk
  addr _ := ⟨(addrHi_append g' a).trans (addrHi_append g a).symm,
    (addrMid_append g' a).trans (addrMid_append g a).symm,
    (addrLo_append g' a).trans (addrLo_append g a).symm⟩

/-- The other operations read nothing of their operand. -/
theorem sameOperand_none {k : Selector} (hk : k = 1#3 ∨ k = 2#3 ∨ k = 3#3 ∨ k = 7#3) (g g' : Word) :
    SameOperand k g g' := by
  constructor <;> rcases hk with rfl | rfl | rfl | rfl <;> simp

/-! ### Two runs that differ in the ignored bits -/

/-- The same exchange row, with another operand. -/
theorem XferRow.withOperand {s : State} {d : Nat} {tx : Byte} {put : Byte → State → State} {a : Word}
    (hr : XferRow s d tx put) (h : SameOperand s.opr s.ar a) : XferRow { s with ar := a } d tx put := by
  have hop := h.opByte s.cfg
  have haddr := h.addr
  cases hr with
  | opcToDeselect | opcToData | opcToAddr | opcToHdr => rw [← hop]; constructor <;> assumption
  | addr0 _ _ ho => rw [← (haddr ho).1]; constructor <;> assumption
  | addr1 _ _ ho => rw [← (haddr ho).2.1]; constructor <;> assumption
  | addr2ToDeselect _ _ ho => rw [← (haddr (by simp [ho])).2.2]; constructor <;> assumption
  | addr2ToData _ _ ho => rw [← (haddr (by tauto)).2.2]; constructor <;> assumption
  | _ => constructor <;> assumption

/-- No exchange row reads AR after its exchange. -/
theorem XferRow.put_withOperand {s : State} {d : Nat} {tx : Byte} {put : Byte → State → State}
    (hr : XferRow s d tx put) (rx : Byte) (u : State) (a : Word) :
    put rx { u with ar := a } = { put rx u with ar := a } := by
  cases hr <;> rfl

/-- The same row of the table, with another operand. -/
theorem TableRow.withOperand {s t : State} {a : Word} (h : TableRow s t)
    (hsame : SameOperand s.opr s.ar a) : TableRow { s with ar := a } { t with ar := a } := by
  cases h with
  | select hp hi => exact .select (s := { s with ar := a }) hp hi
  | @ok hc d tx rx put rest hr ha =>
    rw [← hr.put_withOperand]
    exact .ok (s := { s with ar := a }) hc (hr.withOperand hsame) ha
  | fault hc hr ha hf => exact .fault (s := { s with ar := a }) hc (hr.withOperand hsame) ha hf
  | deselectFault hp hi hf => exact .deselectFault (s := { s with ar := a }) hp hi hf
  | deselectWake hp hi hf ho => exact .deselectWake (s := { s with ar := a }) hp hi hf ho
  | deselectStatus hp hi hf ho => exact .deselectStatus (s := { s with ar := a }) hp hi hf ho
  | deselectSize hp hi hf ho => exact .deselectSize (s := { s with ar := a }) hp hi hf ho
  | deselectDone hp hi hf ho => exact .deselectDone (s := { s with ar := a }) hp hi hf ho
  | wake hp hi ho => exact .wake (s := { s with ar := a }) hp hi ho

/-- The framer waits with one operand where it waits with the other. -/
theorem framerStep_withOperand_waiting {s : State} {a : Word} (hs : HasRow s) (hb : s.busy = true)
    (hsame : SameOperand s.opr s.ar a) (h : framerStep s = .waiting) :
    framerStep { s with ar := a } = .waiting := by
  cases h' : framerStep { s with ar := a } with
  | moved t =>
    have hback := (tableRow_of_framerStep h').withOperand (a := s.ar) hsame.symm
    simp [framerStep_of_tableRow hback] at h
  | waiting => rfl
  | noRow => exact absurd h' (HasRow.ne_noRow ⟨hs.listed, hs.cs⟩ hb)

/-- Two runs from states that differ only in the operand's ignored bits end in such states. -/
theorem runRows_withOperand (n : Nat) {s : State} {a : Word} (hs : HasRow s) (hb : s.busy = true)
    (hsame : SameOperand s.opr s.ar a) :
    ∃ t, runRows framerStep n s = .next t ∧
      runRows framerStep n { s with ar := a } = .next { t with ar := a } := by
  induction n generalizing s with
  | zero => exact ⟨s, rfl, rfl⟩
  | succ n ih =>
    cases h : framerStep s with
    | moved u =>
      have hrow := tableRow_of_framerStep h
      have h' := framerStep_of_tableRow (hrow.withOperand hsame)
      obtain hub | hub := Bool.eq_false_or_eq_true u.busy
      · rw [runRows_moved n h hub, runRows_moved n h' hub]
        refine ih hrow.hasRow hub ?_
        rw [hrow.sameOutside.opr_eq, hrow.sameOutside.ar_eq]
        exact hsame
      · exact ⟨u, runRows_done n h hub, runRows_done n h' hub⟩
    | waiting =>
      exact ⟨s, runRows_waiting _ h, runRows_waiting _ (framerStep_withOperand_waiting hs hb hsame h)⟩
    | noRow => exact absurd h (hs.ne_noRow hb)

/-- Two commands of one operation whose operands differ only in ignored bits. -/
theorem exec_withOperand {i j : Instr} {s : State} (hb : s.busy = false) (hk : j.sel = i.sel)
    (hsame : SameOperand i.sel i.arg j.arg) :
    ∃ t, exec i s = .next t ∧ exec j s = .next { t with ar := j.arg } := by
  have hacc : accepted j s = { accepted i s with ar := j.arg } := by simp [accepted, accept, hk]
  rw [exec_eq_runRows_accepted i hb, exec_eq_runRows_accepted j hb, hacc]
  exact runRows_withOperand _ (.accepted i s) rfl hsame

end Sys2Proof.Machine

namespace Sys2Proof.Proofs

open Sys2Proof Sys2Proof.Machine

/-- Settles O44: in each of the eight forms the operands agree in the bits the operation reads. -/
theorem ignoredBitsDoNothing : Obligations.IgnoredBitsDoNothing := by
  intro i j s hb hij
  obtain ⟨g, g', o, rfl, rfl⟩ | ⟨g, g', rfl, rfl⟩ | ⟨g, g', rfl, rfl⟩ | ⟨g, g', rfl, rfl⟩ |
    ⟨g, g', a, rfl, rfl⟩ | ⟨g, g', a, rfl, rfl⟩ | ⟨g, g', a, rfl, rfl⟩ | ⟨g, g', rfl, rfl⟩ := hij
  · exact exec_withOperand hb rfl (sameOperand_issueCmd g g' o)
  · exact exec_withOperand hb rfl (sameOperand_none (by simp [Instr.sel]) g g')
  · exact exec_withOperand hb rfl (sameOperand_none (by simp [Instr.sel]) g g')
  · exact exec_withOperand hb rfl (sameOperand_none (by simp [Instr.sel]) g g')
  · exact exec_withOperand hb rfl (sameOperand_page (by simp [Instr.sel]) g g' a)
  · exact exec_withOperand hb rfl (sameOperand_page (by simp [Instr.sel]) g g' a)
  · exact exec_withOperand hb rfl (sameOperand_page (by simp [Instr.sel]) g g' a)
  · exact exec_withOperand hb rfl (sameOperand_none (by simp [Instr.sel]) g g')

end Sys2Proof.Proofs

/-!
PROOF. The wire frame (spec/30_encoding.md R63, R67): from any position inside the select window the
exchanges still to come send the rest of the frame.
-/

namespace Sys2Proof.Machine

/-! ### The bytes still to be sent -/

/-- The payload from index `k` on: DUMMY_BYTE in READ_PAGE, BUF in WRITE_PAGE, none in ERASE_PAGE (R63). -/
def payloadToSend (u : State) (k : Nat) : List Byte :=
  if u.opr = 4#3 then List.replicate (256 - k) u.cfg.dummyByte
  else if u.opr = 5#3 then payloadFrom u.buf (256 - k) k u.draws
  else []

/-- The address bytes from index `k` on (R41). -/
def addressToSend (ar : Word) (k : Nat) : List Byte := [addrHi ar, addrMid ar, addrLo ar].drop k

/-- The bytes the operation in progress in `u` has still to send when the transport returns `rs`: the rest
of its frame from the position of `u` on. The header size byte is H, or in HDR the byte that the last header
exchange will return. -/
def bytesToSend (u : State) (rs : List Byte) : List Byte :=
  match u.ph with
  | .opc =>
    opByte u.cfg u.opr u.ar ::
      if u.opr = 0#3 ∨ u.opr = 2#3 ∨ u.opr = 3#3 then []
      else if u.opr = 1#3 then [u.cfg.dummyByte]
      else if u.opr = 7#3 then List.replicate (20 + 8 * (headerOf rs).toNat) u.cfg.dummyByte
      else addressToSend u.ar 0 ++ payloadToSend u 0
  | .addr => addressToSend u.ar u.ix.toNat ++ payloadToSend u 0
  | .data => if u.opr = 1#3 then [u.cfg.dummyByte] else payloadToSend u u.ix.toNat
  | .hdr =>
    List.replicate (20 - u.ix.toNat + 8 * (rs.getD (10 - u.ix.toNat) 0).toNat) u.cfg.dummyByte
  | .align => List.replicate (9 + 8 * u.h.toNat) u.cfg.dummyByte
  | .skip => List.replicate (8 + 8 * u.h.toNat - u.ix.toNat) u.cfg.dummyByte
  | .size => List.replicate (4 - u.ix.toNat) u.cfg.dummyByte
  | .idle | .select | .deselect | .wake => []

/-- The next of a phase's dummy bytes. -/
theorem replicate_eq_cons {n m : Nat} (b : Byte) (h : n = m + 1) :
    List.replicate n b = b :: List.replicate m b := by rw [h, List.replicate_succ]

theorem toNat_index_succ {x n : Index} (h : x < n) : (x + 1).toNat = x.toNat + 1 := by bv_omega

theorem payloadFrom_of_some {buf : Memory} {k : Nat} {v : Byte} (n d : Nat)
    (h : Memory.read buf k = some v) :
    payloadFrom buf (n + 1) k d = v :: payloadFrom buf n (k + 1) d := by simp [payloadFrom, h]

theorem payloadFrom_of_none {buf : Memory} {k : Nat} (n d : Nat) (h : Memory.read buf k = none) :
    payloadFrom buf (n + 1) k d = Config.freeByte d :: payloadFrom buf n (k + 1) (d + 1) := by
  simp [payloadFrom, h]

theorem length_payloadFrom (buf : Memory) (n k d : Nat) : (payloadFrom buf n k d).length = n := by
  induction n generalizing k d with
  | zero => rfl
  | succ n ih =>
    cases h : Memory.read buf k with
    | some v => rw [payloadFrom_of_some n d h, List.length_cons, ih]
    | none => rw [payloadFrom_of_none n d h, List.length_cons, ih]

theorem bytesToSend_readData {u : State} (rs : List Byte) (hp : u.ph = .data) (ho : u.opr = 4#3) :
    bytesToSend u rs = List.replicate (256 - u.ix.toNat) u.cfg.dummyByte := by
  simp only [bytesToSend, payloadToSend, hp, ho]
  rfl

theorem bytesToSend_writeData {u : State} (rs : List Byte) (hp : u.ph = .data) (ho : u.opr = 5#3) :
    bytesToSend u rs = payloadFrom u.buf (256 - u.ix.toNat) u.ix.toNat u.draws := by
  simp only [bytesToSend, payloadToSend, hp, ho]
  rfl

/-- An exchange row sends the next byte and leaves the others to be sent. -/
theorem XferRow.bytesToSend_eq_cons {u : State} {d : Nat} {tx : Byte} {put : Byte → State → State}
    (hr : XferRow u d tx put) (rs : List Byte) (rest : List Answer) :
    bytesToSend u rs =
      tx :: bytesToSend (put (rs.headD 0) (exchanged d tx (rs.headD 0) rest u)) rs.tail := by
  cases hr with
  | opcToDeselect hp hi ho => simp [bytesToSend, hp, ho]
  | opcToData hp hi ho => simp [bytesToSend, hp, ho, exchanged]
  | opcToAddr hp hi ho => rcases ho with ho | ho | ho <;> simp only [bytesToSend, hp, ho] <;> rfl
  | opcToHdr hp hi ho => cases rs <;> simp [bytesToSend, hp, ho, exchanged, headerOf]
  | addr0 hp hi ho => simp only [bytesToSend, hp, hi]; rfl
  | addr1 hp hi ho => simp only [bytesToSend, hp, hi]; rfl
  | addr2ToDeselect hp hi ho => simp only [bytesToSend, payloadToSend, hp, hi, ho]; rfl
  | addr2ToData hp hi ho =>
    rcases ho with ho | ho <;> simp only [bytesToSend, payloadToSend, exchanged, hp, hi, ho] <;> rfl
  | dataStatus hp hi ho => simp only [bytesToSend, hp, ho]; rfl
  | dataRead hp hi ho =>
    rw [bytesToSend_readData rs hp ho, bytesToSend_readData rs.tail rfl (by exact ho),
      toNat_index_succ hi]
    exact replicate_eq_cons _ (by bv_omega)
  | dataReadLast hp hi ho => rw [bytesToSend_readData rs hp ho, hi]; rfl
  | dataWrite hp hi ho _ hv =>
    rw [bytesToSend_writeData rs hp ho, bytesToSend_writeData rs.tail rfl (by exact ho),
      toNat_index_succ hi, show 256 - u.ix.toNat = 256 - (u.ix.toNat + 1) + 1 by bv_omega]
    exact payloadFrom_of_some _ _ hv
  | dataWriteDraw hp hi ho hv =>
    rw [bytesToSend_writeData rs hp ho, bytesToSend_writeData rs.tail rfl (by exact ho),
      toNat_index_succ hi, show 256 - u.ix.toNat = 256 - (u.ix.toNat + 1) + 1 by bv_omega]
    exact payloadFrom_of_none _ _ hv
  | dataWriteLast hp hi ho _ hv =>
    rw [bytesToSend_writeData rs hp ho, hi]
    exact payloadFrom_of_some 0 _ hv
  | dataWriteLastDraw hp hi ho hv =>
    rw [bytesToSend_writeData rs hp ho, hi]
    exact payloadFrom_of_none 0 _ hv
  | hdr hp hi ho =>
    have hix := toNat_index_succ hi
    have hlast : rs.getD (10 - u.ix.toNat) 0 = rs.tail.getD (10 - (u.ix + 1).toNat) 0 := by
      rw [show 10 - u.ix.toNat = 10 - (u.ix + 1).toNat + 1 by bv_omega]
      cases rs <;> rfl
    simp only [bytesToSend, hp, hlast]
    exact replicate_eq_cons _ (by bv_omega)
  | hdrLast hp hi ho =>
    simp only [bytesToSend, hp, hi]
    cases rs <;> exact replicate_eq_cons _ (by simp +arith)
  | align hp hi ho => simp only [bytesToSend, hp, exchanged]; exact replicate_eq_cons _ (by simp; omega)
  | skip hp hi ho | skipLast hp hi ho =>
    have hskip := toNat_skipCount u.h
    simp only [bytesToSend, hp, exchanged]
    exact replicate_eq_cons _ (by bv_omega)
  | size hp hi ho => simp only [bytesToSend, hp]; exact replicate_eq_cons _ (by bv_omega)
  | sizeLast hp hi ho => simp only [bytesToSend, hp, hi]; rfl

/-! ### From a position in the window to the end of the operation -/

/-- An operation in progress stands inside its select window, and no fault has occurred. -/
structure InWindow (u : State) : Prop where
  busy : u.busy = true
  cs : u.cs = true
  flt : u.flt = false
  listed : u.listed = true
  selected : u.ph.selected = true

theorem InWindow.put {u : State} (hu : InWindow u) {d : Nat} {tx : Byte} {put : Byte → State → State}
    (hr : XferRow u d tx put) (rx : Byte) (rest : List Answer) :
    InWindow (put rx (exchanged d tx rx rest u)) := by
  have hk := hr.put_kept rx (exchanged d tx rx rest u)
  obtain ⟨hl, hsel⟩ := hr.put_listed rx (exchanged d tx rx rest u) rfl rfl
  exact ⟨hk.busy_eq.trans hu.busy, hk.cs_eq.trans hu.cs, hk.flt_eq.trans hu.flt, hl, hsel⟩

/-- With every exchange answered the framer puts the rest of the frame on the wire and comes to DESELECT,
one step for each exchange. -/
theorem runRows_rest_of_frame (n : Nat) {u : State} (hu : InWindow u) (rs : List Byte)
    (rest : List Answer) (hlen : (bytesToSend u rs).length = rs.length)
    (ha : u.answers = okAnswers rs ++ rest) :
    ∃ v, runRows framerStep (rs.length + n) u = runRows framerStep n v ∧ InWindow v ∧
      v.ph = .deselect ∧ SameOutside u v ∧ v.answers = rest ∧
      v.wire = u.wire ++ exchangeEvents (bytesToSend u rs) rs := by
  induction rs generalizing u with
  | nil =>
    have hp : u.ph = .deselect := by
      by_contra hd
      obtain ⟨d, tx, put, hr⟩ := exists_xferRow_of_listed hu.listed hu.selected hd
      simp [hr.bytesToSend_eq_cons [] rest] at hlen
    exact ⟨u, by simp, hu, hp, .refl u, ha, by simp [exchangeEvents]⟩
  | cons r rs ih =>
    have hd : u.ph ≠ .deselect := fun hp => by simp [bytesToSend, hp] at hlen
    obtain ⟨d, tx, put, hr⟩ := exists_xferRow_of_listed hu.listed hu.selected hd
    have hcons := hr.bytesToSend_eq_cons (r :: rs) (okAnswers rs ++ rest)
    have hin := hu.put hr r (okAnswers rs ++ rest)
    have hrow : TableRow u (put r (exchanged d tx r (okAnswers rs ++ rest) u)) := .ok hu.cs hr ha
    have hk := hr.put_kept r (exchanged d tx r (okAnswers rs ++ rest) u)
    rw [hcons] at hlen
    obtain ⟨v, hrun, hv, hp, hout, hans, hwire⟩ := ih hin (by simpa using hlen) hk.answers_eq
    refine ⟨v, ?_, hv, hp, hrow.sameOutside.trans hout, hans, ?_⟩
    · rw [List.length_cons, Nat.add_right_comm,
        runRows_moved _ (framerStep_of_tableRow hrow) hin.busy, hrun]
    · rw [hwire, hk.wire_eq, hcons]
      simp [exchangeEvents, exchanged]

/-- The events with which an unfaulted operation of selector `k` ends (R82, R94). -/
def endEvents (k : Selector) (c : Config) : List WireEvent :=
  if k = 3#3 then [.csD, .spin c.wakeSpinCount] else [.csD]

/-- From DESELECT an unfaulted operation completes with code 0: at once, or EXIT_SLEEP after its spin. -/
theorem runRows_completes (n : Nat) {v : State} (hv : InWindow v) (hp : v.ph = .deselect) (hn : 1 ≤ n)
    (hn₃ : v.opr = 3#3 → 2 ≤ n) :
    ∃ t, runRows framerStep n v = .next t ∧ t.busy = false ∧ t.resValid = true ∧ t.resCode = 0 ∧
      t.flt = false ∧ t.answers = v.answers ∧ t.wire = v.wire ++ endEvents v.opr v.cfg := by
  have hi : v.ix = 0 := by simpa [State.listed, hp] using hv.listed
  obtain ⟨m, rfl⟩ := Nat.exists_eq_add_of_le' hn
  obtain ⟨t, ht⟩ := exists_tableRow_of_deselect hp hi
  have hstep := framerStep_of_tableRow ht
  cases ht with
  | select hs | wake hs => simp [hp] at hs
  | ok _ hr | fault _ hr => exact absurd hp hr.phase.2
  | deselectFault _ _ hf => simp [hv.flt] at hf
  | deselectStatus _ _ hf ho | deselectSize _ _ hf ho | deselectDone _ _ hf ho =>
    exact ⟨_, runRows_done _ hstep rfl, rfl, rfl, rfl, hf, rfl, by simp [endEvents, ho]⟩
  | deselectWake _ _ hf ho =>
    obtain ⟨m, rfl⟩ : ∃ m', m = m' + 1 := ⟨m - 1, by have := hn₃ ho; omega⟩
    rw [runRows_moved _ hstep hv.busy]
    have hspin := framerStep_of_tableRow (.wake (s := { v with
      cs := false, wire := v.wire ++ [.csD], wcnt := v.cfg.wakeSpinCount, ph := .wake, ix := 0 })
      rfl rfl ho)
    exact ⟨_, runRows_done _ hspin rfl, rfl, rfl, rfl, hf, rfl, by simp [endEvents, ho]⟩

/-! ### The frame of an operation -/

/-- The state after an operation's first step: the command accepted and the window opened. -/
def opened (i : Instr) (s : State) : State := goto .opc 0 (csAssert (accept i.sel i.arg s))

theorem framerStep_accept (i : Instr) (s : State) :
    framerStep (accept i.sel i.arg s) = .moved (opened i s) := by
  rw [framerStep_select rfl, selectRow]
  exact if_pos rfl

/-- The bytes to be sent when the window has just been opened are the frame of R63. -/
theorem bytesToSend_opened (i : Instr) (s : State) (rs : List Byte) :
    bytesToSend (opened i s) rs = frameBytes i s rs := by
  cases i with
  | issueCmd ign opb => exact congrArg (List.cons · []) BitVec.extractLsb'_append_eq_right
  | readStatus | enterUdpd | exitSleep | discoverSize => rfl
  | readPage ign addr | writePage ign addr | erasePage ign addr =>
    have haddr : addressToSend (ign ++ addr) 0 = frameAddress addr := by
      rw [addressToSend, addrHi_append, addrMid_append, addrLo_append]
      rfl
    exact congrArg (fun bytes => _ :: (bytes ++ _)) haddr

theorem length_frameBytes (i : Instr) (s : State) (rs : List Byte) :
    (frameBytes i s rs).length = exchanges i rs := by
  cases i with
  | readPage => simp [frameBytes, exchanges, frameAddress, -List.reduceReplicate]
  | writePage => simp [frameBytes, exchanges, frameAddress, payload, length_payloadFrom]
  | discoverSize => simp +arith [frameBytes, exchanges]
  | issueCmd | readStatus | enterUdpd | exitSleep | erasePage => rfl

/-- The longest operation is a walk with H = 255 (R67). -/
theorem exchanges_le (i : Instr) (rs : List Byte) : exchanges i rs ≤ 2061 := by
  cases i with
  | discoverSize =>
    have := (headerOf rs).isLt
    simp only [exchanges]
    omega
  | _ => simp [exchanges]

theorem endEvents_sel (i : Instr) (s : State) :
    endEvents i.sel s.cfg = .csD :: afterWindow i s := by cases i <;> rfl

end Sys2Proof.Machine

namespace Sys2Proof.Proofs

open Sys2Proof Sys2Proof.Machine

/-- Settles O26: the first step opens the window, each exchange then sends the next byte of the frame, and
DESELECT and the spin end the operation within its 2063 steps. -/
theorem operationPutsFrameOnWire : Obligations.OperationPutsFrameOnWire := by
  intro i s rs rest hb ht hrs ha
  have hlen := length_frameBytes i s rs
  have hbound := exchanges_le i rs
  have hsleep : i.sel = 3#3 → rs.length = 1 := by
    rw [hrs]
    cases i <;> simp [Instr.sel, exchanges]
  obtain ⟨n, hn⟩ : ∃ n, 2062 = rs.length + n := ⟨2062 - rs.length, by omega⟩
  obtain ⟨v, hrun, hv, hp, hout, hans, hwire⟩ :=
    runRows_rest_of_frame n (u := opened i s) ⟨rfl, rfl, rfl, rfl, rfl⟩ rs rest
      (by rw [bytesToSend_opened, hlen, hrs]) ha
  have hopr : v.opr = i.sel := hout.opr_eq
  obtain ⟨t, hdone, hbusy, hvalid, hcode, hflt, hleft, hend⟩ :=
    runRows_completes n hv hp (by omega) (fun ho => by have := hsleep (hopr ▸ ho); omega)
  refine ⟨hlen, t, ?_, hbusy, hvalid, hcode, hflt, hleft.trans hans, ?_⟩
  · rw [exec_of_no_turns i hb ht, show maxFramerSteps = 2062 + 1 from rfl,
      runRows_moved _ (framerStep_accept i s) rfl, hn, hrun, hdone]
  · rw [hend, hwire, bytesToSend_opened, hopr, show v.cfg = s.cfg from hout.cfg_eq, endEvents_sel]
    simp [opened, csAssert, goto, logEvent]

end Sys2Proof.Proofs

/-!
PROOF. Runs of counted framer steps (spec/40_framing.md R84, R87): a run of the framer is so many rows of the
table, each with one wire event, and no operation has more than 2063 of them.
-/

namespace Sys2Proof.Machine

/-! ### So many rows of the table -/

/-- The operation in progress in `s` comes to `t` by `n` rows of the transition table. -/
inductive FramerSteps : Nat → State → State → Prop where
  | refl (s : State) : FramerSteps 0 s s
  | cons {n : Nat} {s u t : State} (hb : s.busy = true) (h : TableRow s u) (rest : FramerSteps n u t) :
    FramerSteps (n + 1) s t

/-- The framer takes no further step of its operation: it has completed or waits (R36, R139). -/
def State.resting (s : State) : Prop := s.busy = false ∨ framerStep s = .waiting

/-- A completed operation takes no more steps. -/
theorem FramerSteps.of_idle {n : Nat} {s t : State} (h : FramerSteps n s t) (hb : s.busy = false) :
    n = 0 ∧ t = s := by
  cases h with
  | refl => exact ⟨rfl, rfl⟩
  | cons hb' => simp [hb] at hb'

/-- What every row keeps, so many rows keep. -/
theorem FramerSteps.keeps {P : State → Prop} (hrow : ∀ u v, u.busy = true → P u → TableRow u v → P v)
    {n : Nat} {s t : State} (h : FramerSteps n s t) (hs : P s) : P t := by
  induction h with
  | refl => exact hs
  | cons hb hr _ ih => exact ih (hrow _ _ hb hs hr)

theorem FramerSteps.hasRow {n : Nat} {s t : State} (h : FramerSteps n s t) (hs : HasRow s) : HasRow t :=
  h.keeps (P := HasRow) (fun _ _ _ _ hr => hr.hasRow) hs

theorem FramerSteps.sameOutside {n : Nat} {s t : State} (h : FramerSteps n s t) : SameOutside s t :=
  h.keeps (P := SameOutside s) (fun _ _ _ hu hr => hu.trans hr.sameOutside) (.refl s)

/-- Each step puts one event on the wire (R84). -/
theorem FramerSteps.length_wire {n : Nat} {s t : State} (h : FramerSteps n s t) :
    t.wire.length = s.wire.length + n := by
  induction h with
  | refl => rfl
  | cons _ hr _ ih =>
    obtain ⟨e, he⟩ := hr.wire
    rw [ih, he, List.length_append, List.length_singleton]
    omega

/-- A map of states that takes rows to rows takes so many rows to as many. -/
theorem FramerSteps.map (f : State → State) {P : State → Prop}
    (hbusy : ∀ u, (f u).busy = u.busy) (hrow : ∀ u v, P u → TableRow u v → P v ∧ TableRow (f u) (f v))
    {n : Nat} {s t : State} (h : FramerSteps n s t) (hs : P s) : FramerSteps n (f s) (f t) := by
  induction h with
  | refl => exact .refl _
  | cons hb hr _ ih =>
    obtain ⟨hu, hr'⟩ := hrow _ _ hs hr
    exact .cons ((hbusy _).trans hb) hr' (ih hu)

/-! ### A run is so many rows -/

/-- A run takes all the steps it is given, unless the operation completes or waits. -/
theorem framerSteps_of_runRows {n : Nat} {s t : State} (hb : s.busy = true)
    (h : runRows framerStep n s = .next t) :
    ∃ m, m ≤ n ∧ FramerSteps m s t ∧ (m = n ∨ t.resting) := by
  induction n generalizing s with
  | zero => cases h; exact ⟨0, le_rfl, .refl _, .inl rfl⟩
  | succ n ih =>
    cases hf : framerStep s with
    | moved u =>
      have hr := tableRow_of_framerStep hf
      obtain hub | hub := Bool.eq_false_or_eq_true u.busy
      · rw [runRows_moved n hf hub] at h
        obtain ⟨m, hm, hsteps, hend⟩ := ih hub h
        exact ⟨m + 1, by omega, .cons hb hr hsteps, hend.imp_left (by omega)⟩
      · rw [runRows_done n hf hub] at h
        cases h
        exact ⟨1, by omega, .cons hb hr (.refl _), .inr (.inl hub)⟩
    | waiting =>
      rw [runRows_waiting _ hf] at h
      cases h
      exact ⟨0, by omega, .refl _, .inr (.inr hf)⟩
    | noRow => simp [runRows, hf] at h

/-- After so many rows a run goes on from where they lead. -/
theorem FramerSteps.runRows_add {m : Nat} {s t : State} (h : FramerSteps m s t) (ht : t.busy = true)
    (n : Nat) : runRows framerStep (m + n) s = runRows framerStep n t := by
  induction h with
  | refl => rw [Nat.zero_add]
  | @cons m s u t _ hr hrest ih =>
    have hub : u.busy = true := by
      by_contra hub
      obtain ⟨-, rfl⟩ := hrest.of_idle (Bool.eq_false_iff.mpr hub)
      exact hub ht
    rw [Nat.add_right_comm, runRows_moved _ (framerStep_of_tableRow hr) hub, ih ht]

/-- So many rows are a run that was given as many steps, or more where the operation then completes or
waits. -/
theorem FramerSteps.runRows_eq {m n : Nat} {s t : State} (h : FramerSteps m s t) (hb : s.busy = true)
    (hm : m ≤ n) (hend : m = n ∨ t.resting) : runRows framerStep n s = .next t := by
  induction h generalizing n with
  | refl s =>
    obtain rfl | hidle | hw := hend
    · rfl
    · simp [hb] at hidle
    · exact runRows_waiting n hw
  | @cons m s u t _ hr hrest ih =>
    obtain ⟨n, rfl⟩ : ∃ n', n = n' + 1 := ⟨n - 1, by omega⟩
    obtain hub | hub := Bool.eq_false_or_eq_true u.busy
    · rw [runRows_moved n (framerStep_of_tableRow hr) hub]
      exact ih hub (by omega) (hend.imp_left (by omega))
    · obtain ⟨-, rfl⟩ := hrest.of_idle hub
      exact runRows_done n (framerStep_of_tableRow hr) hub

/-! ### The bound on an operation -/

/-- The most framer steps the operation in progress in `s` has still to take (R87): the rest of the frame,
with H = 255 as long as H has not been read, then the deselect, and the spin of EXIT_SLEEP. -/
def stepsLeft (s : State) : Nat :=
  match s.ph with
  | .idle => 0
  | .select => maxFramerSteps
  | .opc => 2062
  | .addr => 260 - s.ix.toNat
  | .data => 257 - s.ix.toNat
  | .hdr => 2061 - s.ix.toNat
  | .align => 8 * s.h.toNat + 10
  | .skip => 8 * s.h.toNat + 9 - s.ix.toNat
  | .size => 5 - s.ix.toNat
  | .deselect => if s.opr = 3#3 then 2 else 1
  | .wake => 1

theorem stepsLeft_le (s : State) : stepsLeft s ≤ maxFramerSteps := by
  have := s.h.isLt
  cases hp : s.ph with simp only [stepsLeft, hp, maxFramerSteps]
  | deselect => split <;> omega
  | _ => omega

/-- A listed position has a step left. -/
theorem stepsLeft_pos {s : State} (hl : s.listed = true) : 0 < stepsLeft s := by
  have hskip := toNat_skipCount s.h
  cases hp : s.ph with simp [State.listed, hp] at hl <;> simp only [stepsLeft, hp]
  | select => decide
  | opc | align | wake => omega
  | addr | hdr | skip | size => obtain ⟨-, hi⟩ := hl; bv_omega
  | data =>
    have hi : s.ix < 256#11 := by obtain ⟨-, hi⟩ | ⟨-, hi⟩ := hl <;> bv_omega
    bv_omega
  | deselect => split <;> omega

/-- An exchange row stands before the deselect, whatever the operation's end. -/
theorem XferRow.deselect_lt {s : State} {d : Nat} {tx : Byte} {put : Byte → State → State}
    (hr : XferRow s d tx put) : (if s.opr = 3#3 then 2 else 1) < stepsLeft s := by
  have hskip := toNat_skipCount s.h
  cases hr with
  | opcToDeselect hp | opcToData hp | opcToAddr hp | opcToHdr hp =>
    simp only [stepsLeft, hp]
    split <;> omega
  | addr0 hp hi | addr1 hp hi | addr2ToData hp hi =>
    simp only [stepsLeft, hp, hi]
    split <;> decide
  | addr2ToDeselect hp hi ho | dataStatus hp hi ho | dataReadLast hp hi ho | dataWriteLast hp hi ho
  | dataWriteLastDraw hp hi ho | hdrLast hp hi ho | align hp hi ho | sizeLast hp hi ho =>
    simp [stepsLeft, hp, hi, ho]
  | dataRead hp hi ho | dataWrite hp hi ho | dataWriteDraw hp hi ho | hdr hp hi ho | skip hp hi ho
  | skipLast hp hi ho | size hp hi ho =>
    rw [if_neg (by simp [ho])]
    simp only [stepsLeft, hp]
    bv_omega

/-- An exchange row leaves a step less. -/
theorem XferRow.stepsLeft_lt {s : State} {d : Nat} {tx : Byte} {put : Byte → State → State}
    (hr : XferRow s d tx put) (rx : Byte) (u : State) (ho : u.opr = s.opr) (hh : u.h = s.h) :
    stepsLeft (put rx u) < stepsLeft s := by
  have hskip := toNat_skipCount s.h
  have hend := hr.deselect_lt
  cases hr with
  | opcToDeselect | addr2ToDeselect | dataStatus | dataReadLast | dataWriteLast | dataWriteLastDraw
  | sizeLast => rwa [← ho] at hend
  | opcToData hp | opcToAddr hp | opcToHdr hp => simp [stepsLeft, hp]
  | addr0 hp hi | addr1 hp hi | addr2ToData hp hi => simp [stepsLeft, hp, hi]
  | hdrLast hp hi =>
    have := rx.isLt
    simp [stepsLeft, hp, hi]
    omega
  | dataRead hp hi | dataWrite hp hi | dataWriteDraw hp hi | hdr hp hi | align hp hi | skip hp hi
  | skipLast hp hi | size hp hi =>
    simp only [stepsLeft, hp, hh]
    bv_omega

/-- Every row of the table leaves a step less. -/
theorem TableRow.stepsLeft_lt {s t : State} (h : TableRow s t) : stepsLeft t < stepsLeft s := by
  cases h with
  | select hp => simp [stepsLeft, hp, maxFramerSteps]
  | @ok hc d tx rx put rest hr => exact hr.stepsLeft_lt rx (exchanged d tx rx rest s) rfl rfl
  | fault _ hr => exact hr.deselect_lt
  | deselectWake hp _ _ ho => simp [stepsLeft, hp, ho]
  | wake hp => simp [stepsLeft, hp]
  | deselectFault hp | deselectStatus hp | deselectSize hp | deselectDone hp =>
    simp only [stepsLeft, hp]
    split <;> omega

theorem FramerSteps.stepsLeft_add_le {n : Nat} {s t : State} (h : FramerSteps n s t) :
    stepsLeft t + n ≤ stepsLeft s := by
  induction h with
  | refl => exact le_rfl
  | cons _ hr _ ih =>
    have := hr.stepsLeft_lt
    omega

/-- After 2063 steps the operation has completed (R87). -/
theorem FramerSteps.idle_of_max {n : Nat} {s t : State} (h : FramerSteps n s t) (hs : HasRow s)
    (hn : maxFramerSteps ≤ n) : t.busy = false := by
  by_contra hb
  have hpos := stepsLeft_pos ((h.hasRow hs).listed (by simpa using hb))
  have hle := h.stepsLeft_add_le
  have hmax := stepsLeft_le s
  omega

/-- A run to the completion or a wait; 2063 steps are enough for every operation (R87). -/
theorem framerSteps_of_runRows_max {n : Nat} {s t : State} (hs : HasRow s) (hb : s.busy = true)
    (hn : maxFramerSteps ≤ n) (h : runRows framerStep n s = .next t) :
    ∃ m, m ≤ maxFramerSteps ∧ FramerSteps m s t ∧ t.resting := by
  obtain ⟨m, -, hsteps, hend⟩ := framerSteps_of_runRows hb h
  have hle := hsteps.stepsLeft_add_le
  have hmax := stepsLeft_le s
  refine ⟨m, by omega, hsteps, hend.elim (fun hmn => .inl ?_) id⟩
  exact hsteps.idle_of_max hs (hmn ▸ hn)

/-- From a position with a row a run answers a next state. -/
theorem exists_runRows (n : Nat) {s : State} (hs : HasRow s) (hb : s.busy = true) :
    ∃ t, runRows framerStep n s = .next t :=
  runRows_answers (P := HasRow) (fun _ _ _ _ h => (tableRow_of_framerStep h).hasRow)
    (fun _ hub hu => hu.ne_noRow hub) n hb hs

/-- More steps than 2063 make no difference (R87). -/
theorem runRows_of_max_le {n : Nat} {s : State} (hs : HasRow s) (hb : s.busy = true)
    (hn : maxFramerSteps ≤ n) : runRows framerStep n s = runRows framerStep maxFramerSteps s := by
  obtain ⟨t, ht⟩ := exists_runRows maxFramerSteps hs hb
  obtain ⟨m, hm, hsteps, hend⟩ := framerSteps_of_runRows_max hs hb le_rfl ht
  rw [ht]
  exact hsteps.runRows_eq hb (hm.trans hn) (.inr hend)

/-- An operation is acceptance and the rows of its turn, all the turn gives it unless it completes or
waits. -/
theorem framerSteps_of_exec {i : Instr} {s t : State} (hb : s.busy = false) (h : exec i s = .next t) :
    ∃ m, m ≤ s.turns.headD maxFramerSteps ∧ FramerSteps m (accepted i s) t ∧
      (m = s.turns.headD maxFramerSteps ∨ t.resting) :=
  framerSteps_of_runRows rfl (exec_eq_runRows_accepted i hb ▸ h)

/-- An operation offered to an idle framer answers a next state (R68, R85). -/
theorem exists_exec (i : Instr) {s : State} (hb : s.busy = false) : ∃ t, exec i s = .next t := by
  rw [exec_eq_runRows_accepted i hb]
  exact exists_runRows _ (.accepted i s) rfl

end Sys2Proof.Machine

/-!
PROOF. The environment of an operation (spec/40_framing.md R83, R84): more answers of the transport behind
those there are, and other turns, leave its rows as they are.
-/

namespace Sys2Proof.Machine

/-! ### More answers and other turns -/

/-- The state with more answers of the transport to come, and the turns `ts`. -/
def State.withInputs (more : List Answer) (ts : List Nat) (s : State) : State :=
  { s with answers := s.answers ++ more, turns := ts }

theorem State.withInputs_nil (ts : List Nat) (s : State) :
    s.withInputs [] ts = { s with turns := ts } := by simp [State.withInputs]

/-- No exchange row reads the answers behind the one it takes, or the turns. -/
theorem XferRow.withInputs {s : State} {d : Nat} {tx : Byte} {put : Byte → State → State}
    (hr : XferRow s d tx put) (more : List Answer) (ts : List Nat) :
    XferRow (s.withInputs more ts) d tx put :=
  hr.congr rfl rfl rfl rfl rfl (fun _ => rfl) (fun _ _ => rfl) (fun _ _ _ => rfl)

theorem XferRow.put_withInputs {s : State} {d : Nat} {tx : Byte} {put : Byte → State → State}
    (hr : XferRow s d tx put) (rx : Byte) (u : State) (more : List Answer) (ts : List Nat) :
    put rx (u.withInputs more ts) = (put rx u).withInputs more ts := by
  cases hr <;> rfl

/-- A row of the table is one with more answers to come and other turns. -/
theorem TableRow.withInputs {s t : State} (h : TableRow s t) (more : List Answer) (ts : List Nat) :
    TableRow (s.withInputs more ts) (t.withInputs more ts) := by
  have hans {a : Answer} {rest : List Answer} (ha : s.answers = a :: rest) :
      (s.withInputs more ts).answers = a :: (rest ++ more) := congrArg (· ++ more) ha
  cases h with
  | select hp hi => exact .select (s := s.withInputs more ts) hp hi
  | @ok hc d tx rx put rest hr ha =>
    rw [← hr.put_withInputs]
    exact .ok (s := s.withInputs more ts) hc (hr.withInputs more ts) (hans ha)
  | fault hc hr ha hf =>
    exact .fault (s := s.withInputs more ts) hc (hr.withInputs more ts) (hans ha) hf
  | deselectFault hp hi hf => exact .deselectFault (s := s.withInputs more ts) hp hi hf
  | deselectWake hp hi hf ho => exact .deselectWake (s := s.withInputs more ts) hp hi hf ho
  | deselectStatus hp hi hf ho => exact .deselectStatus (s := s.withInputs more ts) hp hi hf ho
  | deselectSize hp hi hf ho => exact .deselectSize (s := s.withInputs more ts) hp hi hf ho
  | deselectDone hp hi hf ho => exact .deselectDone (s := s.withInputs more ts) hp hi hf ho
  | wake hp hi ho => exact .wake (s := s.withInputs more ts) hp hi ho

theorem TableRow.withTurns {s t : State} (h : TableRow s t) (ts : List Nat) :
    TableRow { s with turns := ts } { t with turns := ts } := by
  have := h.withInputs [] ts
  rwa [State.withInputs_nil, State.withInputs_nil] at this

theorem FramerSteps.withInputs {n : Nat} {s t : State} (h : FramerSteps n s t) (more : List Answer)
    (ts : List Nat) : FramerSteps n (s.withInputs more ts) (t.withInputs more ts) :=
  h.map (State.withInputs more ts) (P := fun _ => True) (fun _ => rfl)
    (fun _ _ _ hr => ⟨trivial, hr.withInputs more ts⟩) trivial

theorem FramerSteps.withTurns {n : Nat} {s t : State} (h : FramerSteps n s t) (ts : List Nat) :
    FramerSteps n { s with turns := ts } { t with turns := ts } := by
  have := h.withInputs [] ts
  rwa [State.withInputs_nil, State.withInputs_nil] at this

theorem HasRow.withInputs {s : State} (hs : HasRow s) (more : List Answer) (ts : List Nat) :
    HasRow (s.withInputs more ts) := ⟨hs.listed, hs.cs⟩

/-! ### Where the framer waits -/

/-- At a position with a row the framer waits where no row can be taken. -/
theorem HasRow.waiting_iff {s : State} (hs : HasRow s) (hb : s.busy = true) :
    framerStep s = .waiting ↔ ∀ t, ¬ TableRow s t := by
  constructor
  · intro hw t ht
    rw [framerStep_of_tableRow ht] at hw
    cases hw
  · intro hn
    cases hf : framerStep s with
    | moved t => exact absurd (tableRow_of_framerStep hf) (hn t)
    | waiting => rfl
    | noRow => exact absurd hf (hs.ne_noRow hb)

/-- Where the framer has completed or waits in one state, so it does in another whose rows are the first's. -/
theorem State.resting.of_rows {s s' : State} (h : s.resting) (hs : HasRow s) (hs' : HasRow s')
    (hb : s'.busy = s.busy) (hback : ∀ t, TableRow s' t → ∃ u, TableRow s u) : s'.resting := by
  obtain hsb | hsb := Bool.eq_false_or_eq_true s.busy
  · have hn := (hs.waiting_iff hsb).mp (h.resolve_left (by simp [hsb]))
    refine .inr ((hs'.waiting_iff (hb.trans hsb)).mpr fun t ht => ?_)
    obtain ⟨u, hu⟩ := hback t ht
    exact hn u hu
  · exact .inl (hb.trans hsb)

/-- The framer completes or waits whatever the turns. -/
theorem State.resting.withTurns {s : State} (h : s.resting) (hs : HasRow s) (ts : List Nat) :
    State.resting { s with turns := ts } :=
  h.of_rows hs ⟨hs.listed, hs.cs⟩ rfl fun _ ht => ⟨_, ht.withTurns s.turns⟩

/-- At a position with a row the framer that does not wait moves. -/
theorem HasRow.exists_moved {s : State} (hs : HasRow s) (hb : s.busy = true)
    (hw : framerStep s ≠ .waiting) : ∃ t, framerStep s = .moved t := by
  cases hf : framerStep s with
  | moved t => exact ⟨t, rfl⟩
  | waiting => exact absurd hf hw
  | noRow => exact absurd hf (hs.ne_noRow hb)

/-- With no turn to come a step of the machine goes on to the completion or a wait, unless the host takes
a step where the framer waits. -/
theorem step_of_no_turns {s : State} (hs : HasRow s) (hb : s.busy = true) (hts : s.turns = [])
    (hhost : s.host = [] ∨ framerStep s ≠ .waiting) :
    step s = runRows framerStep maxFramerSteps s := by
  rw [step_of_busy hb]
  by_cases hw : framerStep s = .waiting
  · have hnone : s.host = [] := hhost.resolve_right (absurd hw)
    rw [busyTurn_of_waiting hw, runRows_waiting _ hw, hostTurnBusy_of_other] <;> simp [hnone]
  · obtain ⟨t, ht⟩ := hs.exists_moved hb hw
    rw [busyTurn_of_moved ht (by simp [hts]), runTurn_nil hts]

/-- A framer that waits does so at an exchange, with CS = 1. -/
theorem HasRow.cs_of_waiting {s : State} (hs : HasRow s) (hb : s.busy = true)
    (hw : framerStep s = .waiting) : s.cs = true := by
  have hn := (hs.waiting_iff hb).mp hw
  have hl := hs.listed hb
  refine hs.cs hb ?_
  cases hp : s.ph with simp only [State.listed, hp, Bool.and_eq_true, decide_eq_true_eq] at hl
  | idle => cases hl
  | select => exact absurd (.select hp hl) (hn _)
  | wake => exact absurd (.wake hp hl.2 hl.1) (hn _)
  | _ => rfl

end Sys2Proof.Machine

namespace Sys2Proof.Proofs

open Sys2Proof Sys2Proof.Machine

/-- Settles O53: the framer's step does not depend on the turns, and a turn of one step is that step. -/
theorem singleFramerStep : Obligations.SingleFramerStep := by
  intro s t ts hb h hts
  have hrow := tableRow_of_framerStep h
  refine ⟨?_, hrow.wire⟩
  rw [step_of_busy hb, busyTurn_of_moved h (by simp [hts]), runTurn_cons hts]
  have hone : FramerSteps 1 s t := .cons hb hrow (.refl t)
  exact (hone.withTurns ts).runRows_eq hb le_rfl (.inl rfl)

/-- Settles O54: both runs are so many rows, as many as events on the wire, and the rows do not depend on
the turns. -/
theorem turnsOnlyCut : Obligations.TurnsOnlyCut := by
  refine ⟨fun i s t k ts hb h hk => ?_, fun i s t m n ts hb h ht hw => ?_⟩
  · rw [exec_eq_runRows_accepted (s := { s with turns := [] }) i hb] at h
    obtain ⟨m, -, hsteps, hend⟩ := framerSteps_of_runRows_max (.accepted i _) rfl le_rfl h
    have hm : m ≤ k := by
      have hwire := hsteps.length_wire
      simp only [accepted, accept] at hwire
      omega
    rw [exec_eq_runRows_accepted (s := { s with turns := k :: ts }) i hb]
    exact (hsteps.withTurns ts).runRows_eq rfl hm
      (.inr (hend.withTurns (hsteps.hasRow (.accepted i _)) ts))
  · obtain ⟨m', -, hsteps, hend⟩ := framerSteps_of_exec (s := { s with turns := m :: (n + 1) :: ts }) hb h
    obtain rfl : m' = m := hend.resolve_right fun hr => hr.elim (by simp [ht]) hw
    have htts : t.turns = (n + 1) :: ts := hsteps.sameOutside.turns_eq
    obtain ⟨u, hu⟩ := (hsteps.hasRow (.accepted i _)).exists_moved ht hw
    rw [step_of_busy ht, busyTurn_of_moved hu (by simp [htts]), runTurn_cons htts,
      exec_eq_runRows_accepted (s := { s with turns := (m' + n + 1) :: ts }) i hb]
    exact ((hsteps.withTurns ts).runRows_add ht (n + 1)).symm

/-- Settles O36: the rows taken before the wait or the cut are rows with all the answers there from
acceptance, and 2063 steps more end the operation either way. -/
theorem waitingIsTransparent : Obligations.WaitingIsTransparent := by
  intro i s t more hb h ht hts hhost
  obtain ⟨m, -, hsteps, -⟩ := framerSteps_of_exec hb h
  have hthost : t.host = s.host := hsteps.sameOutside.host_eq
  have hlast : State.withInputs more [] t = { t with answers := t.answers ++ more } := by
    rw [State.withInputs, ← hts]
  rw [← hthost] at hhost
  rw [← hlast] at hhost ⊢
  have hfirst := (HasRow.accepted i s).withInputs more []
  have hall := hsteps.withInputs more []
  rw [step_of_no_turns (hall.hasRow hfirst) ht rfl hhost, ← hall.runRows_add ht,
    runRows_of_max_le hfirst rfl (Nat.le_add_left _ _)]
  exact (exec_eq_runRows_accepted (s := { s with answers := s.answers ++ more, turns := [] }) i hb).symm

end Sys2Proof.Proofs

/-!
PROOF. The select window of an operation (spec/40_framing.md R80 to R82, R87): where an operation can stand,
and that a step from a state with the invariant always answers.
-/

namespace Sys2Proof.Machine

/-! ### The window of an operation -/

/-- An event of an exchange, answered or faulted. -/
def WireEvent.isExchange (e : WireEvent) : Prop := (∃ tx rx, e = .x tx rx) ∨ ∃ tx, e = .xf tx

/-- How far an operation accepted in `s` has come in `u` with its select window: not yet opened; open, with
the exchanges so far; closed, with the spin to come (R94); or completed. -/
inductive WindowSoFar (s u : State) : Prop where
  | unopened (hb : u.busy = true) (hv : u.resValid = false) (hp : u.ph = .select) (hw : u.wire = s.wire)
  | inside (body : List WireEvent) (hb : u.busy = true) (hv : u.resValid = false)
      (hp : u.ph.selected = true) (hc : u.cs = true) (hw : u.wire = s.wire ++ [.csA] ++ body)
      (hx : ∀ e ∈ body, e.isExchange)
  | closed (body : List WireEvent) (hb : u.busy = true) (hv : u.resValid = false) (hp : u.ph = .wake)
      (hc : u.cs = false) (hw : u.wire = s.wire ++ [.csA] ++ body ++ [.csD])
      (hx : ∀ e ∈ body, e.isExchange)
  | completed (body tail : List WireEvent) (hb : u.busy = false) (hv : u.resValid = true)
      (hp : u.ph = .idle) (hc : u.cs = false)
      (hw : u.wire = s.wire ++ [.csA] ++ body ++ [.csD] ++ tail)
      (hx : ∀ e ∈ body, e.isExchange) (hs : ∀ e ∈ tail, ∃ n, e = .spin n)

/-- One more exchange in the window. -/
theorem isExchange_concat {body : List WireEvent} {e : WireEvent} (hx : ∀ e ∈ body, e.isExchange)
    (he : e.isExchange) : ∀ e' ∈ body ++ [e], e'.isExchange :=
  List.forall_mem_append.mpr ⟨hx, List.forall_mem_singleton.mpr he⟩

theorem WindowSoFar.step {s u v : State} (hu : WindowSoFar s u) (h : TableRow u v)
    (hb : u.busy = true) : WindowSoFar s v := by
  cases hu with
  | unopened _ hv hp hw =>
    cases h with
    | select => exact .inside [] hb hv rfl rfl (by simp [hw]) (by simp)
    | ok _ hr | fault _ hr =>
      obtain ⟨hsel, -⟩ := hr.phase
      simp [hp, Phase.selected] at hsel
    | deselectFault hd | deselectWake hd | deselectStatus hd | deselectSize hd | deselectDone hd
    | wake hd => simp [hp] at hd
  | inside body _ hv hp hc hw hx =>
    cases h with
    | select hd | wake hd => simp [hd, Phase.selected] at hp
    | @ok _ d tx rx put rest hr =>
      have hk := hr.put_kept rx (exchanged d tx rx rest u)
      obtain ⟨-, hsel⟩ := hr.put_listed rx (exchanged d tx rx rest u) rfl rfl
      exact .inside (body ++ [.x tx rx]) (hk.busy_eq.trans hb) (hk.resValid_eq.trans hv) hsel
        (hk.cs_eq.trans hc) (by rw [hk.wire_eq]; simp [exchanged, hw])
        (isExchange_concat hx (.inl ⟨tx, rx, rfl⟩))
    | @fault _ d tx =>
      exact .inside (body ++ [.xf tx]) hb hv rfl hc (by simp [hw]) (isExchange_concat hx (.inr ⟨tx, rfl⟩))
    | deselectWake => exact .closed body hb hv rfl rfl (by simp [hw]) hx
    | deselectFault | deselectStatus | deselectSize | deselectDone =>
      exact .completed body [] rfl rfl rfl rfl (by simp [hw]) hx (by simp)
  | closed body _ hv hp hc hw hx =>
    cases h with
    | wake =>
      exact .completed body [.spin u.cfg.wakeSpinCount] rfl rfl rfl hc (by simp [hw]) hx (by simp)
    | ok _ hr | fault _ hr =>
      obtain ⟨hsel, -⟩ := hr.phase
      simp [hp, Phase.selected] at hsel
    | select hd | deselectFault hd | deselectWake hd | deselectStatus hd | deselectSize hd
    | deselectDone hd => simp [hp] at hd
  | completed _ _ hd => simp [hb] at hd

theorem WindowSoFar.accepted (i : Instr) (s : State) : WindowSoFar s (accepted i s) :=
  .unopened rfl rfl rfl rfl

theorem exec_windowSoFar (i : Instr) {s t : State} (hb : s.busy = false) (h : exec i s = .next t) :
    WindowSoFar s t :=
  exec_keeps_opr i hb (.accepted i s) (fun _ _ hub _ hu huv => hu.step huv hub) h

/-- RES_VALID is 0 while the operation is in progress (R23). -/
theorem WindowSoFar.invalid_of_busy {s u : State} (hu : WindowSoFar s u) (hb : u.busy = true) :
    u.resValid = false := by
  cases hu with
  | unopened _ hv | inside _ _ hv | closed _ _ hv => exact hv
  | completed _ _ hd => simp [hb] at hd

/-- A completed operation has left the framer idle and deselected, with a result (R11, R81). -/
theorem WindowSoFar.of_idle {s u : State} (hu : WindowSoFar s u) (hb : u.busy = false) :
    u.ph = .idle ∧ u.cs = false ∧ u.resValid = true := by
  cases hu with
  | unopened hd | inside _ hd | closed _ hd => simp [hb] at hd
  | completed _ _ _ hv hp hc => exact ⟨hp, hc, hv⟩

/-! ### Every step answers -/

theorem State.Inv.hasRow {s : State} (hinv : s.Inv) : HasRow s :=
  ⟨hinv.listed_of_busy, fun _ hsel => hinv.cs_eq.trans hsel⟩

theorem exists_hostTurn {s : State} (hb : s.busy = false) : ∃ t, hostTurn s = .next t := by
  rcases hostTurn_cases s with ⟨-, he⟩ | ⟨a, rest, -, ⟨w, -, he⟩ | ⟨i, -, he⟩ | ⟨i, v, -, he⟩ | ⟨-, he⟩ |
    ⟨-, he⟩⟩ <;> rw [he]
  · exact ⟨_, rfl⟩
  · exact exists_exec (s := { s with host := rest }) (decode w) hb
  all_goals exact ⟨_, rfl⟩

theorem exists_hostTurnBusy (s : State) : ∃ t, hostTurnBusy s = .next t := by
  rcases hostTurnBusy_cases s with he | ⟨rest, -, he⟩ | ⟨rest, -, he⟩ <;> exact ⟨_, he⟩

/-- While BUSY = 1, at a position with a row, whichever agent has its turn answers a next state. -/
theorem HasRow.exists_busyTurn {s : State} (hs : HasRow s) (hb : s.busy = true) :
    ∃ t, busyTurn s = .next t := by
  by_cases hw : framerStep s = .waiting
  · rw [busyTurn_of_waiting hw]
    exact exists_hostTurnBusy s
  · obtain ⟨u, hu⟩ := hs.exists_moved hb hw
    by_cases hz : s.turns.head? = some 0
    · obtain ⟨ts, hts⟩ := List.head?_eq_some_iff.mp hz
      rw [busyTurn_of_zero hu hts]
      exact exists_hostTurnBusy _
    · rw [busyTurn_of_moved hu hz]
      exact exists_runRows (s := { s with turns := s.turns.tail }) _ ⟨hs.listed, hs.cs⟩ hb

end Sys2Proof.Machine

namespace Sys2Proof.Proofs

open Sys2Proof Sys2Proof.Machine

/-- Settles O27. -/
theorem oneWindowPerOperation : Obligations.OneWindowPerOperation := by
  intro i s t hb h hd
  cases exec_windowSoFar i hb h with
  | unopened hd' | inside _ hd' | closed _ hd' => simp [hd] at hd'
  | completed body tail _ _ _ hc hw hx hs => exact ⟨hc, body, tail, hw, hx, hs⟩

/-- Settles O28: the operation is so many rows, at most 2063 of them, and where it neither has completed
nor waits it has taken all the steps of its turn, of which there was one. -/
theorem execCompletesOrWaits : Obligations.ExecCompletesOrWaits := by
  intro i s hb
  obtain ⟨t, h⟩ := exists_exec i hb
  obtain ⟨m, -, hsteps, hend⟩ := framerSteps_of_exec hb h
  have hwindow := exec_windowSoFar i hb h
  have hlen : t.wire.length = s.wire.length + m := hsteps.length_wire
  have hm : m ≤ maxFramerSteps :=
    (Nat.le_add_left ..).trans (hsteps.stepsLeft_add_le.trans (stepsLeft_le _))
  refine ⟨t, h, hlen ▸ Nat.add_le_add_left hm _, ?_⟩
  obtain ht | ht := Bool.eq_false_or_eq_true t.busy
  · have hv := hwindow.invalid_of_busy ht
    by_cases hw : framerStep t = .waiting
    · exact .inr (.inl ⟨ht, (hsteps.hasRow (.accepted i s)).cs_of_waiting ht hw, hv, hw⟩)
    · have hall := hend.resolve_right fun hr => hr.elim (by simp [ht]) hw
      refine .inr (.inr ⟨ht, hv, ?_⟩)
      cases hts : s.turns with
      | nil =>
        rw [hts] at hall
        simp [hsteps.idle_of_max (.accepted i s) hall.ge] at ht
      | cons k ts =>
        rw [hts] at hall
        exact ⟨k, ts, rfl, hlen.trans (congrArg _ hall)⟩
  · obtain ⟨hp, hc, hv⟩ := hwindow.of_idle ht
    exact .inl ⟨ht, hp, hc, hv⟩

/-- Settles O40: the invariant puts a busy framer at a position with a row. -/
theorem invariantStepAnswers : Obligations.InvariantStepAnswers := by
  intro s hinv
  obtain hb | hb := Bool.eq_false_or_eq_true s.busy
  · rw [step_of_busy hb]
    exact hinv.hasRow.exists_busyTurn hb
  · rw [step_of_idle hb]
    exact exists_hostTurn hb

end Sys2Proof.Proofs

/-!
PROOF. The transition table and the one-byte operations (spec/40_framing.md R84 to R88).
-/

namespace Sys2Proof.Machine

/-! ### The opcode exchange -/

/-- Phase OPC sends OpByte in every column (R86). -/
theorem exists_xferRow_of_opc {s : State} (hp : s.ph = .opc) (hi : s.ix = 0) :
    ∃ put, XferRow s 0 (opByte s.cfg s.opr s.ar) put := by
  obtain ⟨d, tx, put, hr⟩ := exists_xferRow_of_listed (s := s) (by simp [State.listed, hp, hi])
    (by rw [hp]; rfl) (by simp [hp])
  obtain ⟨rfl, rfl⟩ : d = 0 ∧ tx = opByte s.cfg s.opr s.ar := by
    cases hr with
    | opcToDeselect | opcToData | opcToAddr | opcToHdr => exact ⟨rfl, rfl⟩
    | _ hp' => simp [hp] at hp'
  exact ⟨put, hr⟩

/-! ### The one-byte operations -/

/-- ISSUE_CMD and ENTER_UDPD, whose transport answers: the byte alone in a window, completed with 0. -/
theorem exec_oneByte (i : Instr) (hk : i.sel = 0#3 ∨ i.sel = 2#3) {s : State} {r : Byte}
    {rest : List Answer} (hb : s.busy = false) (hts : s.turns = []) (ha : s.answers = .ok r :: rest) :
    exec i s = .next (finished i 0 0 [.csA, .x (opByte s.cfg i.sel i.arg) r, .csD] rest s) := by
  have hopc := XferRow.opcToDeselect (s := opened i s) rfl rfl (by tauto)
  have hdone : i.sel ≠ 1#3 ∧ i.sel ≠ 3#3 ∧ i.sel ≠ 7#3 := by rcases hk with hk | hk <;> simp [hk]
  have hrows : FramerSteps 3 (accept i.sel i.arg s) _ :=
    .cons rfl (tableRow_of_framerStep (framerStep_accept i s))
      (.cons rfl (.ok rfl hopc ha) (.cons rfl (.deselectDone rfl rfl rfl hdone) (.refl _)))
  rw [exec_of_no_turns i hb hts, hrows.runRows_eq rfl (by decide) (.inr (.inl rfl))]
  simp [finished, exchanged, opened, goto, csAssert, logEvent, accept]

/-- The one-byte operation in progress with another command of one byte. -/
def State.withCommand (k : Selector) (a : Word) (s : State) : State := { s with opr := k, ar := a }

/-- The selectors `k` and `k'` are those of ISSUE_CMD or ENTER_UDPD, and the two commands send the same
byte. -/
structure SameByte (c : Config) (k : Selector) (a : Word) (k' : Selector) (a' : Word) : Prop where
  left : k = 0#3 ∨ k = 2#3
  right : k' = 0#3 ∨ k' = 2#3
  byte : opByte c k' a' = opByte c k a

theorem SameByte.symm {c : Config} {k k' : Selector} {a a' : Word} (h : SameByte c k a k' a') :
    SameByte c k' a' k a := ⟨h.right, h.left, h.byte.symm⟩

/-- The framer's steps change neither the command nor the parameters. -/
theorem SameByte.along {s t : State} {k : Selector} {a : Word} (hout : SameOutside s t)
    (h : SameByte s.cfg s.opr s.ar k a) : SameByte t.cfg t.opr t.ar k a := by
  rw [hout.cfg_eq, hout.opr_eq, hout.ar_eq]
  exact h

/-- The same exchange row, with the other command. -/
theorem XferRow.withCommand {s : State} {d : Nat} {tx : Byte} {put : Byte → State → State} {k : Selector}
    {a : Word} (hr : XferRow s d tx put) (hsame : SameByte s.cfg s.opr s.ar k a) :
    XferRow (s.withCommand k a) d tx put := by
  obtain ⟨hleft, hright, hbyte⟩ := hsame
  cases hr with
  | opcToDeselect hp hi =>
    rw [← hbyte]
    exact .opcToDeselect (s := s.withCommand k a) hp hi (hright.imp_right .inl)
  | _ _ _ ho => rcases hleft with hk | hk <;> simp [hk] at ho

/-- No exchange row reads the command after its exchange. -/
theorem XferRow.put_withCommand {s : State} {d : Nat} {tx : Byte} {put : Byte → State → State}
    (hr : XferRow s d tx put) (rx : Byte) (u : State) (k : Selector) (a : Word) :
    put rx (u.withCommand k a) = (put rx u).withCommand k a := by
  cases hr <;> rfl

/-- The same row of the table, with the other command. -/
theorem TableRow.withCommand {s t : State} {k : Selector} {a : Word} (h : TableRow s t)
    (hsame : SameByte s.cfg s.opr s.ar k a) :
    TableRow (s.withCommand k a) (t.withCommand k a) := by
  have hother : s.opr ≠ 1#3 ∧ s.opr ≠ 3#3 ∧ s.opr ≠ 7#3 := by
    rcases hsame.left with hk | hk <;> simp [hk]
  cases h with
  | select hp hi => exact .select (s := s.withCommand k a) hp hi
  | @ok hc d tx rx put rest hr ha =>
    rw [← hr.put_withCommand]
    exact .ok (s := s.withCommand k a) hc (hr.withCommand hsame) ha
  | fault hc hr ha hf => exact .fault (s := s.withCommand k a) hc (hr.withCommand hsame) ha hf
  | deselectFault hp hi hf => exact .deselectFault (s := s.withCommand k a) hp hi hf
  | deselectDone hp hi hf =>
    exact .deselectDone (s := s.withCommand k a) hp hi hf (by
      rcases hsame.right with hk | hk <;> simp [State.withCommand, hk])
  | deselectWake _ _ _ ho | deselectStatus _ _ _ ho | deselectSize _ _ _ ho | wake _ _ ho =>
    simp [ho] at hother

/-- The framer completes or waits with one command where it does with the other. -/
theorem State.resting.withCommand {s : State} {k : Selector} {a : Word} (h : s.resting) (hs : HasRow s)
    (hs' : HasRow (s.withCommand k a)) (hsame : SameByte s.cfg s.opr s.ar k a) :
    (s.withCommand k a).resting :=
  h.of_rows hs hs' rfl fun _ ht => ⟨_, ht.withCommand (k := s.opr) (a := s.ar) hsame.symm⟩

/-- Two commands of one byte that send the same byte differ in the latched command alone. -/
theorem exec_withCommand {i j : Instr} {s : State} (hb : s.busy = false)
    (hsame : SameByte s.cfg i.sel i.arg j.sel j.arg) :
    ∃ t, exec i s = .next t ∧ exec j s = .next (t.withCommand j.sel j.arg) := by
  obtain ⟨t, h⟩ := exists_exec i hb
  obtain ⟨m, hm, hsteps, hend⟩ := framerSteps_of_exec hb h
  have hsteps' := hsteps.map (State.withCommand j.sel j.arg)
    (P := fun u => SameByte u.cfg u.opr u.ar j.sel j.arg) (fun _ => rfl)
    (fun _ _ hu hr => ⟨SameByte.along hr.sameOutside hu, hr.withCommand hu⟩) hsame
  refine ⟨t, h, ?_⟩
  rw [exec_eq_runRows_accepted j hb]
  exact hsteps'.runRows_eq rfl hm (hend.imp_right fun hr =>
    hr.withCommand (hsteps.hasRow (.accepted i s)) (hsteps'.hasRow (.accepted j s))
      (SameByte.along hsteps.sameOutside hsame))

end Sys2Proof.Machine

namespace Sys2Proof.Proofs

open Sys2Proof Sys2Proof.Machine

/-- Settles O10: the inversion of a step, and each row forward. -/
theorem transitionTable : Obligations.TransitionTable :=
  fun _ _ => ⟨tableRow_of_framerStep, framerStep_of_tableRow⟩

/-- Settles O11. -/
theorem framerStepOneEvent : Obligations.FramerStepOneEvent :=
  fun _ _ h => (tableRow_of_framerStep h).wire

/-- Settles O5: the function by its definition, and the opcode exchange sends its value. -/
theorem opByteBySelector : Obligations.OpByteBySelector := by
  refine ⟨fun c ar => ⟨rfl, rfl, rfl, rfl, rfl, rfl, rfl, rfl⟩, fun s rx rest hp hi hc ha => ?_⟩
  obtain ⟨put, hr⟩ := exists_xferRow_of_opc hp hi
  exact ⟨_, framerStep_of_tableRow (.ok hc hr ha), (hr.put_kept _ _).wire_eq⟩

/-- Settles O18. -/
theorem issueCmdCompletes : Obligations.IssueCmdCompletes := by
  intro ign opb r rest s hb hts ha
  have hbyte : opByte s.cfg 0#3 (ign ++ opb) = opb := BitVec.extractLsb'_append_eq_right
  rw [exec_oneByte _ (.inl rfl) hb hts ha]
  exact congrArg (fun b => Host.Outcome.next (finished _ 0 0 [.csA, .x b r, .csD] rest s)) hbyte

/-- Settles O45: OpByte of ENTER_UDPD is OP_UDPD, and OpByte of ISSUE_CMD is OPB. -/
theorem enterUdpdIsIssueCmd : Obligations.EnterUdpdIsIssueCmd := by
  intro ign g s hb
  exact exec_withCommand (i := .enterUdpd ign) (j := .issueCmd g s.cfg.opUdpd) hb
    ⟨.inr rfl, .inl rfl, BitVec.extractLsb'_append_eq_right⟩

end Sys2Proof.Proofs

/-!
PROOF. READ_STATUS, ENTER_UDPD and EXIT_SLEEP (spec/41_status_sleep_wake.md R90 to R94).
-/

namespace Sys2Proof.Machine

/-- The table leaves the framer no choice (R84). -/
theorem TableRow.unique {s t t' : State} (h : TableRow s t) (h' : TableRow s t') : t = t' :=
  FramerMove.moved.inj ((framerStep_of_tableRow h).symm.trans (framerStep_of_tableRow h'))

theorem FramerSteps.one {s t : State} (h : TableRow s t) (hb : s.busy = true) : FramerSteps 1 s t :=
  .cons hb h (.refl t)

/-- An operation whose opcode the transport answers, and whose rows after that exchange complete it. -/
theorem exec_of_rows_after_opc (i : Instr) {s t : State} {n : Nat} {tx r : Byte} {rest : List Answer}
    {put : Byte → State → State} (hb : s.busy = false) (hts : s.turns = [])
    (ha : s.answers = .ok r :: rest) (hr : XferRow (opened i s) 0 tx put)
    (hrest : FramerSteps n (put r (exchanged 0 tx r rest (opened i s))) t) (hn : n + 2 ≤ maxFramerSteps)
    (ht : t.busy = false) : exec i s = .next t := by
  have hrows : FramerSteps (n + 2) (accept i.sel i.arg s) t :=
    .cons rfl (tableRow_of_framerStep (framerStep_accept i s)) (.cons rfl (.ok rfl hr ha) hrest)
  rw [exec_of_no_turns i hb hts]
  exact hrows.runRows_eq rfl hn (.inr (.inl ht))

/-! ### EXIT_SLEEP as an ISSUE_CMD of OP_RDP -/

/-- The opcode row of EXIT_SLEEP is the one of an ISSUE_CMD of the same byte. -/
theorem XferRow.asIssueCmd {s : State} {d : Nat} {tx : Byte} {put : Byte → State → State} {a : Word}
    (hr : XferRow s d tx put) (ho : s.opr = 3#3) (hbyte : addrLo a = s.cfg.opRdp) :
    XferRow (s.withCommand 0#3 a) d tx put := by
  cases hr with
  | opcToDeselect hp hi =>
    have htx : opByte s.cfg s.opr s.ar = opByte s.cfg 0#3 a := by rw [ho]; exact hbyte.symm
    rw [htx]
    exact .opcToDeselect (s := s.withCommand 0#3 a) hp hi (.inl rfl)
  | _ _ _ ho' => simp [ho] at ho'

/-- The end `t` of an EXIT_SLEEP as the end of an ISSUE_CMD with the operand `a`: the spin, which only an
unfaulted operation has made, is off the wire, and WCNT is the `w` from before it. -/
def State.asIssueCmd (a : Word) (w : Nat) (t : State) : State :=
  { t with opr := 0#3, ar := a, wcnt := w, wire := if t.flt then t.wire else t.wire.dropLast }

/-- The rows of an EXIT_SLEEP that completes are those of an ISSUE_CMD of the same byte, up to DESELECT,
where a fault ends both; without one ISSUE_CMD is done there and EXIT_SLEEP has its spin to make. -/
theorem FramerSteps.asIssueCmd {m : Nat} {s t : State} {a : Word} (h : FramerSteps m s t)
    (hb : s.busy = true) (ho : s.opr = 3#3) (hp : s.ph ≠ .wake) (hbyte : addrLo a = s.cfg.opRdp)
    (ht : t.busy = false) :
    (∃ n ≤ m, FramerSteps n (s.withCommand 0#3 a) (t.asIssueCmd a s.wcnt)) ∧
      t.wire.getLast? = some (if t.flt then .csD else .spin s.cfg.wakeSpinCount) := by
  induction h with
  | refl => simp [hb] at ht
  | @cons m s u t _ hrow hrest ih =>
    cases hrow with
    | select hps hi =>
      obtain ⟨⟨n, hn, hsteps⟩, hlast⟩ := ih hb ho (by simp) hbyte ht
      exact ⟨⟨n + 1, by omega, .cons hb (.select (s := s.withCommand 0#3 a) hps hi) hsteps⟩, hlast⟩
    | ok hc hr ha =>
      have hrow' := TableRow.ok (s := s.withCommand 0#3 a) hc (hr.asIssueCmd ho hbyte) ha
      cases hr with
      | opcToDeselect =>
        obtain ⟨⟨n, hn, hsteps⟩, hlast⟩ := ih hb ho (by simp) hbyte ht
        exact ⟨⟨n + 1, by omega, .cons hb hrow' hsteps⟩, hlast⟩
      | _ _ _ ho' => simp [ho] at ho'
    | fault hc hr ha hf =>
      have hrow' := TableRow.fault (s := s.withCommand 0#3 a) hc (hr.asIssueCmd ho hbyte) ha hf
      obtain ⟨⟨n, hn, hsteps⟩, hlast⟩ := ih hb ho (by simp) hbyte ht
      exact ⟨⟨n + 1, by omega, .cons hb hrow' hsteps⟩, hlast⟩
    | deselectFault hpd hi hf =>
      obtain ⟨-, rfl⟩ := hrest.of_idle rfl
      have hdone := TableRow.deselectFault (s := s.withCommand 0#3 a) hpd hi hf
      refine ⟨⟨1, by omega, ?_⟩, by simp [hf]⟩
      simpa [State.asIssueCmd, State.withCommand, hf] using FramerSteps.one hdone hb
    | deselectWake hpd hi hf =>
      cases hrest with
      | refl => simp [hb] at ht
      | cons _ hspin hrest =>
        obtain rfl := hspin.unique (.wake rfl rfl ho)
        obtain ⟨-, rfl⟩ := hrest.of_idle rfl
        have hdone := TableRow.deselectDone (s := s.withCommand 0#3 a) hpd hi hf
          (by simp [State.withCommand])
        refine ⟨⟨1, by omega, ?_⟩, by simp [hf]⟩
        simpa [State.asIssueCmd, State.withCommand, hi, hf] using FramerSteps.one hdone hb
    | deselectStatus _ _ _ ho' | deselectSize _ _ _ ho' | deselectDone _ _ _ ho' => simp [ho] at ho'
    | wake hpw => exact absurd hpw hp

end Sys2Proof.Machine

namespace Sys2Proof.Proofs

open Sys2Proof Sys2Proof.Machine

/-- Settles O46: the rows of the EXIT_SLEEP but for the spin are those of the ISSUE_CMD, no more than the
turn gives. -/
theorem exitSleepIsIssueCmdAndSpin : Obligations.ExitSleepIsIssueCmdAndSpin := by
  intro ign g s t hb h ht
  obtain ⟨m, hm, hsteps, -⟩ := framerSteps_of_exec hb h
  have hbyte : addrLo (g ++ s.cfg.opRdp) = s.cfg.opRdp := BitVec.extractLsb'_append_eq_right
  obtain ⟨⟨n, hn, hissue⟩, hlast⟩ := hsteps.asIssueCmd rfl rfl (by simp [accepted]) hbyte ht
  refine ⟨?_, fun hf => by rw [hlast, hf]; rfl, fun hf => by rw [hlast, hf]; rfl⟩
  rw [exec_eq_runRows_accepted _ hb]
  exact hissue.runRows_eq rfl (hn.trans hm) (.inr (.inl ht))

/-- Settles O19: after the opcode the status exchange and the deselect. -/
theorem readStatusCompletes : Obligations.ReadStatusCompletes := by
  intro ign r v rest s hb hts ha
  rw [exec_of_rows_after_opc (n := 2) _ hb hts ha (.opcToData rfl rfl rfl)
    (.cons rfl (.ok rfl (.dataStatus rfl rfl rfl) rfl)
      (.cons rfl (.deselectStatus rfl rfl rfl rfl) (.refl _))) (by decide) rfl]
  simp [finished, exchanged, opened, goto, csAssert, logEvent, accept, opByte, Instr.sel]

/-- Settles O20. -/
theorem enterUdpdCompletes : Obligations.EnterUdpdCompletes :=
  fun ign _ _ _ hb hts ha => exec_oneByte (.enterUdpd ign) (.inr rfl) hb hts ha

/-- Settles O21: after the opcode the deselect and the spin. -/
theorem exitSleepCompletes : Obligations.ExitSleepCompletes := by
  intro ign r rest s hb hts ha
  rw [exec_of_rows_after_opc (n := 2) _ hb hts ha (.opcToDeselect rfl rfl (.inr (.inr rfl)))
    (.cons rfl (.deselectWake rfl rfl rfl rfl) (.cons rfl (.wake rfl rfl rfl) (.refl _)))
    (by decide) rfl]
  simp [finished, exchanged, opened, goto, csAssert, logEvent, accept, opByte, Instr.sel]

end Sys2Proof.Proofs

/-!
PROOF. The end of a page operation (spec/42_page_ops.md R100 to R104): with every exchange answered the state
is `finished` but for BUF and the count of draws.
-/

namespace Sys2Proof.Machine

/-! ### A completed operation -/

/-- The row that completes an operation stands at index 0 and leaves IX there (log entry 14). -/
theorem TableRow.ix_of_completed {s t : State} (h : TableRow s t) (hb : s.busy = true)
    (hd : t.busy = false) : t.ix = 0 := by
  cases h with
  | select | fault | deselectWake => simp [hb] at hd
  | ok _ hr => simp [(hr.put_kept _ _).busy_eq, exchanged, hb] at hd
  | deselectFault _ hi | deselectStatus _ hi | deselectSize _ hi | deselectDone _ hi | wake _ hi =>
    exact hi

theorem exec_ix_of_completed (i : Instr) {s t : State} (hb : s.busy = false) (h : exec i s = .next t)
    (hd : t.busy = false) : t.ix = 0 :=
  exec_keeps_opr (P := fun u => u.busy = false → u.ix = 0) i hb (nomatch ·)
    (fun _ _ hub _ _ huv hvd => huv.ix_of_completed hub hvd) h hd

/-- Every operation but READ_PAGE leaves BUF as it is (R19). -/
theorem exec_buf_eq (i : Instr) (hn : i.sel ≠ 4#3) {s t : State} (hb : s.busy = false)
    (h : exec i s = .next t) : t.buf = s.buf :=
  exec_field_eq State.buf i hb
    (fun _ _ ho huv => huv.buf.resolve_right fun hw => hn (ho.symm.trans hw.1)) h

/-- Every operation but WRITE_PAGE makes no draws (R35). -/
theorem exec_draws_eq (i : Instr) (hn : i.sel ≠ 5#3) {s t : State} (hb : s.busy = false)
    (h : exec i s = .next t) : t.draws = s.draws :=
  exec_field_eq State.draws i hb (fun _ _ ho huv => huv.draws_eq (.inl (ho ▸ hn))) h

/-- A page operation with every exchange answered completes with OK and its frame on the wire, and has
changed nothing else but BUF and the count of draws. -/
theorem exec_pageOp (i : Instr) (hk : i.sel = 4#3 ∨ i.sel = 5#3 ∨ i.sel = 6#3) {s : State}
    {rs : List Byte} {rest : List Answer} (hb : s.busy = false) (hts : s.turns = [])
    (hrs : rs.length = exchanges i rs) (ha : s.answers = okAnswers rs ++ rest) :
    ∃ t, exec i s = .next t ∧
      t = { finished i 0 0 ([.csA] ++ exchangeEvents (frameBytes i s rs) rs ++ [.csD]) rest s with
            buf := t.buf, draws := t.draws } := by
  obtain ⟨-, t, h, hbusy, hvalid, hcode, hflt, hans, hwire⟩ :=
    Proofs.operationPutsFrameOnWire i s rs rest hb hts hrs ha
  obtain ⟨hcfg, hhost, hseen, hopr, har, hturns, hsr, hh, hacc, hwcnt, -⟩ :=
    Proofs.operationFrame i s t hb h
  obtain ⟨hph, hcs, -⟩ := (exec_windowSoFar i hb h).of_idle hbusy
  obtain ⟨h1, h3, h7⟩ : i.sel ≠ 1#3 ∧ i.sel ≠ 3#3 ∧ i.sel ≠ 7#3 := by
    rcases hk with hk | hk | hk <;> simp [hk]
  have hval := ((exec_resVal i hb h).2 hbusy).other h1 h7
  have hix := exec_ix_of_completed i hb h hbusy
  have hafter : afterWindow i s = [] := by cases i <;> simp [Instr.sel, afterWindow] at h3 ⊢
  refine ⟨t, h, ?_⟩
  rw [hts, List.tail_nil] at hturns
  rw [hafter, List.append_nil] at hwire
  cases t
  simp_all [finished]

end Sys2Proof.Machine

/-!
PROOF. WRITE_PAGE and ERASE_PAGE (spec/42_page_ops.md R102, R104): what is sent and drawn.
-/

namespace Sys2Proof.Machine

/-! ### The draws of WRITE_PAGE -/

theorem unwritten_of_some {buf : Memory} {k : Nat} {v : Byte} (n : Nat)
    (h : Memory.read buf k = some v) : unwritten buf (n + 1) k = unwritten buf n (k + 1) := by
  simp [unwritten, h]

theorem unwritten_of_none {buf : Memory} {k : Nat} (n : Nat) (h : Memory.read buf k = none) :
    unwritten buf (n + 1) k = unwritten buf n (k + 1) + 1 := by simp [unwritten, h]

/-- How many draws the WRITE_PAGE in progress in `u` has still to make: one for each byte of BUF not yet
sent and not written (R35). -/
def drawsToMake (u : State) : Nat :=
  match u.ph with
  | .select | .opc | .addr => unwritten u.buf 256 0
  | .data => unwritten u.buf (256 - u.ix.toNat) u.ix.toNat
  | .idle | .hdr | .align | .skip | .size | .deselect | .wake => 0

theorem drawsToMake_of_data {u : State} (hp : u.ph = .data) :
    drawsToMake u = unwritten u.buf (256 - u.ix.toNat) u.ix.toNat := by simp only [drawsToMake, hp]

/-- An exchange of WRITE_PAGE makes its draws and leaves the others to be made. -/
theorem XferRow.drawsToMake_eq_add {u : State} {d : Nat} {tx : Byte} {put : Byte → State → State}
    (hr : XferRow u d tx put) (ho : u.opr = 5#3) (rx : Byte) {t : State} (hbuf : t.buf = u.buf) :
    drawsToMake u = drawsToMake (put rx t) + d := by
  have hmore (hi : u.ix < 255) : 256 - u.ix.toNat = (256 - (u.ix.toNat + 1)) + 1 := by bv_omega
  cases hr with
  | opcToAddr hp | addr0 hp | addr1 hp | addr2ToData hp => simp [drawsToMake, hp, hbuf]
  | dataWrite hp hi _ _ hv =>
    rw [drawsToMake_of_data hp, drawsToMake_of_data rfl, toNat_index_succ hi, hbuf, hmore hi]
    exact unwritten_of_some _ hv
  | dataWriteDraw hp hi _ hv =>
    rw [drawsToMake_of_data hp, drawsToMake_of_data rfl, toNat_index_succ hi, hbuf, hmore hi]
    exact unwritten_of_none _ hv
  | dataWriteLast hp hi _ _ hv =>
    rw [drawsToMake_of_data hp, hi]
    exact unwritten_of_some 0 hv
  | dataWriteLastDraw hp hi _ hv =>
    rw [drawsToMake_of_data hp, hi]
    exact unwritten_of_none 0 hv
  | _ _ _ ho' => simp [ho] at ho'

/-- An unfaulted WRITE_PAGE makes a draw for each byte of BUF that nothing has written. -/
theorem exec_writePage_draws (ign : Byte) (addr : FlashAddr) {s t : State} (hb : s.busy = false)
    (h : exec (.writePage ign addr) s = .next t) (hf : t.flt = false) (hp : t.ph = .idle) :
    t.draws = s.draws + unwritten s.buf 256 0 := by
  have hall : t.flt = false → t.draws + drawsToMake t = s.draws + unwritten s.buf 256 0 := by
    refine exec_keeps_opr (P := fun u => u.flt = false →
      u.draws + drawsToMake u = s.draws + unwritten s.buf 256 0) _ hb (fun _ => rfl)
      (fun u v _ ho hu huv hf => ?_) h
    cases huv with
    | select hps => simpa [drawsToMake, hps] using hu hf
    | @ok _ d tx rx put rest hr =>
      have hk := hr.put_kept rx (exchanged d tx rx rest u)
      rw [← hu (hk.flt_eq.symm.trans hf), hk.draws_eq,
        hr.drawsToMake_eq_add ho rx (t := exchanged d tx rx rest u) rfl]
      exact (Nat.add_assoc _ _ _).trans (congrArg _ (Nat.add_comm _ _))
    | fault => cases hf
    | deselectDone hpd => simpa [drawsToMake, hpd] using hu hf
    | deselectFault _ _ hft => simp [hft] at hf
    | deselectWake _ _ _ ho' | deselectStatus _ _ _ ho' | deselectSize _ _ _ ho' | wake _ _ ho' =>
      simp [ho, Instr.sel] at ho'
  simpa [drawsToMake, hp] using hall hf

end Sys2Proof.Machine

namespace Sys2Proof.Proofs

open Sys2Proof Sys2Proof.Machine

/-- Settles O24: BUF is written only by READ_PAGE, and a draw made only by WRITE_PAGE. -/
theorem erasePageCompletes : Obligations.ErasePageCompletes := by
  intro ign addr r0 r1 r2 r3 rest s hb hts ha
  obtain ⟨t, h, heq⟩ := exec_pageOp (.erasePage ign addr) (rs := [r0, r1, r2, r3]) (by simp [Instr.sel])
    hb hts rfl ha
  have hbuf := exec_buf_eq _ (by simp [Instr.sel]) hb h
  have hdraws := exec_draws_eq _ (by simp [Instr.sel]) hb h
  rw [hbuf, hdraws] at heq
  rw [h, heq]
  rfl

/-- Settles O23: the frame holds the payload, and each unwritten byte of it was one draw. -/
theorem writePageCompletes : Obligations.WritePageCompletes := by
  intro ign addr rs rest s hb hts hrs ha
  obtain ⟨t, h, heq⟩ := exec_pageOp (.writePage ign addr) (rs := rs) (by simp [Instr.sel])
    hb hts hrs ha
  have hbuf := exec_buf_eq _ (by simp [Instr.sel]) hb h
  have hdraws := exec_writePage_draws ign addr hb h (by rw [heq]; rfl) (by rw [heq]; rfl)
  rw [hbuf, hdraws] at heq
  rw [h, heq]
  rfl

end Sys2Proof.Proofs

/-!
PROOF. A fault in an operation (spec/60_exceptions.md R131): the exchanges before it, and the end it brings.
-/

namespace Sys2Proof.Machine

/-! ### An operation up to a fault -/

theorem FramerSteps.trans {m n : Nat} {s t u : State} (h : FramerSteps m s t) (k : FramerSteps n t u) :
    FramerSteps (m + n) s u := by
  induction h with
  | refl => rwa [Nat.zero_add]
  | cons hb hr _ ih => rw [Nat.add_right_comm]; exact .cons hb hr (ih k)

/-- The first exchanges of the window, answered, send the first bytes of the frame and leave the others to
be sent. -/
theorem framerSteps_of_okAnswers {u : State} (hu : InWindow u) (rs : List Byte) (rest : List Answer)
    (hlen : rs.length ≤ (bytesToSend u rs).length) (ha : u.answers = okAnswers rs ++ rest) :
    ∃ v, FramerSteps rs.length u v ∧ InWindow v ∧ v.answers = rest ∧
      bytesToSend v [] = (bytesToSend u rs).drop rs.length ∧
      v.wire = u.wire ++ exchangeEvents (bytesToSend u rs) rs := by
  induction rs generalizing u with
  | nil => exact ⟨u, .refl u, hu, ha, rfl, by simp [exchangeEvents]⟩
  | cons r rs ih =>
    have hd : u.ph ≠ .deselect := fun hp => by simp [bytesToSend, hp] at hlen
    obtain ⟨d, tx, put, hr⟩ := exists_xferRow_of_listed hu.listed hu.selected hd
    have hcons := hr.bytesToSend_eq_cons (r :: rs) (okAnswers rs ++ rest)
    have hk := hr.put_kept r (exchanged d tx r (okAnswers rs ++ rest) u)
    rw [hcons] at hlen
    obtain ⟨v, hsteps, hv, hans, hleft, hwire⟩ := ih (hu.put hr r (okAnswers rs ++ rest))
      (by simpa using hlen) hk.answers_eq
    refine ⟨v, .cons hu.busy (.ok hu.cs hr ha) hsteps, hv, hans, ?_, ?_⟩
    · rw [hleft, hcons]
      rfl
    · rw [hwire, hk.wire_eq, hcons]
      simp [exchangeEvents, exchanged]

/-- An operation whose transport answers some exchanges and then faults: from the state `v` at the faulted
exchange of the byte `tx` it takes the exception, deselects and completes. -/
theorem exec_of_fault (i : Instr) {s : State} {rs : List Byte} {rest : List Answer} (hb : s.busy = false)
    (hts : s.turns = []) (hcan : s.cfg.tCanFault = true) (hlt : rs.length < exchanges i rs)
    (ha : s.answers = okAnswers rs ++ .fault :: rest) :
    ∃ v tx, exec i s = .next (faultExit (csDeassert (faultEntry tx v))) ∧ v.answers = rest ∧
      (frameBytes i s rs)[rs.length]? = some tx ∧
      v.wire = s.wire ++ [.csA] ++ exchangeEvents (frameBytes i s rs) rs := by
  have hlen := length_frameBytes i s rs
  have hmax := exchanges_le i rs
  have hopen := bytesToSend_opened i s rs
  obtain ⟨u, hsteps, hu, hans, hleft, hwire⟩ := framerSteps_of_okAnswers (u := opened i s)
    ⟨rfl, rfl, rfl, rfl, rfl⟩ rs (.fault :: rest) (by rw [hopen]; omega) ha
  rw [hopen] at hleft hwire
  have hd : u.ph ≠ .deselect := fun hp => by
    have hnone := congrArg List.length hleft
    simp only [bytesToSend, hp, List.length_nil, List.length_drop] at hnone
    omega
  obtain ⟨d, tx, put, hr⟩ := exists_xferRow_of_listed hu.listed hu.selected hd
  have hcfg : u.cfg = s.cfg := hsteps.sameOutside.cfg_eq
  have hfault := TableRow.fault hu.cs hr hans (by rw [hcfg]; exact hcan)
  have hrows : FramerSteps (1 + (rs.length + 2)) (accept i.sel i.arg s) _ :=
    (FramerSteps.one (tableRow_of_framerStep (framerStep_accept i s)) rfl).trans
      (hsteps.trans (.cons hu.busy hfault (.one (.deselectFault rfl rfl rfl) hu.busy)))
  refine ⟨{ u with answers := rest, draws := u.draws + d }, tx, ?_, rfl, ?_, ?_⟩
  · rw [exec_of_no_turns i hb hts]
    exact hrows.runRows_eq rfl (by rw [maxFramerSteps]; omega) (.inr (.inl rfl))
  · rw [← List.head?_drop, ← hleft, hr.bytesToSend_eq_cons [] rest]
    rfl
  · exact hwire

end Sys2Proof.Machine

/-!
PROOF. The bytes of READ_PAGE (spec/42_page_ops.md R100, R101, R106, R108): after each exchange BUF holds the
bytes received and is otherwise as before.
-/

namespace Sys2Proof.Machine

/-! ### The bytes READ_PAGE receives -/

/-- BUF[k] when a READ_PAGE that found `buf` has had the answers `used`: the byte of exchange k + 4 if it
was answered, else the byte as before (R100, R106). -/
def receivedByte (buf : Memory) (used : List Answer) (k : Nat) : Option Byte :=
  match used[k + 4]? with
  | some (.ok rx) => some rx
  | some .fault | none => Memory.read buf k

/-- With no answer for index `k` the byte is as before. -/
theorem receivedByte_of_length_le {buf : Memory} {used : List Answer} {k : Nat}
    (h : used.length ≤ k + 4) : receivedByte buf used k = Memory.read buf k := by
  simp [receivedByte, List.getElem?_eq_none h]

/-- One more answer is for one index only. -/
theorem receivedByte_concat_of_ne {buf : Memory} {used : List Answer} {a : Answer} {k : Nat}
    (h : k + 4 ≠ used.length) : receivedByte buf (used ++ [a]) k = receivedByte buf used k := by
  have hget : (used ++ [a])[k + 4]? = used[k + 4]? := by grind
  rw [receivedByte, hget, receivedByte]

/-- One more byte received. -/
theorem receivedByte_concat_ok (buf : Memory) (used : List Answer) (rx : Byte) (k : Nat) :
    receivedByte buf (used ++ [.ok rx]) k =
      if k + 4 = used.length then some rx else receivedByte buf used k := by
  split_ifs with h
  · simp [receivedByte, h]
  · exact receivedByte_concat_of_ne h

/-- A fault is no byte received. -/
theorem receivedByte_concat_fault (buf : Memory) (used : List Answer) (k : Nat) :
    receivedByte buf (used ++ [.fault]) k = receivedByte buf used k := by
  by_cases h : k + 4 = used.length
  · rw [receivedByte_of_length_le h.ge]
    simp [receivedByte, h]
  · exact receivedByte_concat_of_ne h

/-- Where the exchanges were answered the byte is the one received. -/
theorem receivedByte_okAnswers {buf : Memory} {rs : List Byte} {k : Nat} (h : k + 4 < rs.length) :
    receivedByte buf (okAnswers rs) k = rs[k + 4]? := by
  simp [receivedByte, okAnswers, h]

/-- The exchanges a READ_PAGE has made when it stands at the position of `u`, before its DESELECT. -/
def exchangesMade (u : State) : Nat :=
  match u.ph with
  | .addr => u.ix.toNat + 1
  | .data => u.ix.toNat + 4
  | .idle | .select | .opc | .hdr | .align | .skip | .size | .deselect | .wake => 0

theorem XferRow.exchangesMade_put {u : State} {d : Nat} {tx : Byte} {put : Byte → State → State}
    (hr : XferRow u d tx put) (ho : u.opr = 4#3) (rx : Byte) (t : State)
    (hp : (put rx t).ph ≠ .deselect) : exchangesMade (put rx t) = exchangesMade u + 1 := by
  cases hr with
  | opcToAddr hu => simp [exchangesMade, hu]
  | addr0 hu hi | addr1 hu hi | addr2ToData hu hi => simp [exchangesMade, hu, hi]
  | dataRead hu hi =>
    simp only [exchangesMade, hu, toNat_index_succ hi]
  | dataReadLast | opcToDeselect | addr2ToDeselect => simp at hp
  | _ _ _ ho' => simp [ho] at ho'

/-- The exchange of READ_PAGE after the first four writes BUF from index 0 up, one byte each (R19, R100). -/
theorem XferRow.read_put {u : State} {d : Nat} {tx : Byte} {put : Byte → State → State}
    (hr : XferRow u d tx put) (ho : u.opr = 4#3) (rx : Byte) (t : State) (k : Nat) :
    Memory.read (put rx t).buf k = if k + 4 = exchangesMade u then some rx else Memory.read t.buf k := by
  cases hr with
  | opcToAddr hu => simp [exchangesMade, hu]
  | addr0 hu hi | addr1 hu hi | addr2ToData hu hi => simp [exchangesMade, hu, hi]
  | dataRead hu => simp [exchangesMade, hu, Memory.read_write]
  | dataReadLast hu hi => simp [exchangesMade, hu, hi, Memory.read_write]
  | _ _ _ ho' => simp [ho] at ho'

/-- A READ_PAGE accepted in `s` has consumed `used` and stands in `u`: BUF holds the bytes received and
is otherwise as before. -/
structure PageReceived (s u : State) (used : List Answer) : Prop where
  consumed : s.answers = used ++ u.answers
  made : u.busy = true → u.ph ≠ .deselect → used.length = exchangesMade u
  page : ∀ k, Memory.read u.buf k = receivedByte s.buf used k

theorem PageReceived.step {s u v : State} {used : List Answer} (hu : PageReceived s u used)
    (hb : u.busy = true) (ho : u.opr = 4#3) (h : TableRow u v) : ∃ used', PageReceived s v used' := by
  cases h with
  | select hp =>
    exact ⟨used, hu.consumed, fun _ _ => by simpa [exchangesMade, hp] using hu.made hb, hu.page⟩
  | @ok _ d tx rx put rest hr ha =>
    have hmade := hu.made hb hr.phase.2
    refine ⟨used ++ [.ok rx], ?_, fun _ hp => ?_, fun k => ?_⟩
    · rw [(hr.put_kept _ _).answers_eq, hu.consumed, ha]
      simp [exchanged]
    · rw [hr.exchangesMade_put ho rx _ hp, ← hmade, List.length_append, List.length_singleton]
    · rw [hr.read_put ho, receivedByte_concat_ok, hmade, ← hu.page]
      rfl
  | fault _ hr ha =>
    exact ⟨used ++ [.fault], by simp [hu.consumed, ha], fun _ hp => absurd rfl hp,
      fun k => (hu.page k).trans (receivedByte_concat_fault ..).symm⟩
  | deselectFault | deselectStatus | deselectSize | deselectDone | wake =>
    exact ⟨used, hu.consumed, (nomatch ·), hu.page⟩
  | deselectWake _ _ _ ho' => simp [ho] at ho'

/-- BUF after a READ_PAGE that has consumed the answers `used`. -/
theorem exec_readPage_read {ign : Byte} {addr : FlashAddr} {s t : State} {used : List Answer}
    (hb : s.busy = false) (h : exec (.readPage ign addr) s = .next t)
    (ha : s.answers = used ++ t.answers) (k : Nat) :
    Memory.read t.buf k = receivedByte s.buf used k := by
  have hall : ∃ used', PageReceived s t used' := by
    refine exec_keeps_opr (P := fun u => ∃ used', PageReceived s u used') _ hb
      ⟨[], rfl, fun _ _ => rfl, fun _ => rfl⟩ (fun u v hub ho hu huv => ?_) h
    obtain ⟨used', hu'⟩ := hu
    exact hu'.step hub ho huv
  obtain ⟨used', hconsumed, -, hpage⟩ := hall
  rw [hpage, List.append_cancel_right (hconsumed.symm.trans ha)]

/-! ### The round trip -/

/-- An operation keeps BUF in canonical form. -/
theorem exec_buf_wf (i : Instr) {s t : State} (hb : s.busy = false) (hwf : Memory.wf s.buf = true)
    (h : exec i s = .next t) : Memory.wf t.buf = true := by
  refine exec_keeps_opr (P := fun u => Memory.wf u.buf = true) i hb hwf (fun u v _ _ hu huv => ?_) h
  obtain hk | ⟨-, -, hi, rx, hw⟩ := huv.buf
  · rwa [hk]
  · rw [hw]
    exact Memory.wf_write _ _ _ hi hu

/-- Where all bytes have been written the payload is BUF, with no draws. -/
theorem getElem?_payloadFrom {buf : Memory} {n j : Nat} (k d : Nat) (hj : j < n)
    (hall : ∀ a, k ≤ a → a < k + n → (Memory.read buf a).isSome = true) :
    (payloadFrom buf n k d)[j]? = Memory.read buf (k + j) := by
  induction n generalizing k j with
  | zero => omega
  | succ n ih =>
    obtain ⟨v, hv⟩ := Option.isSome_iff_exists.mp (hall k le_rfl (by omega))
    rw [payloadFrom_of_some n d hv]
    cases j with
    | zero => exact hv.symm
    | succ j =>
      rw [List.getElem?_cons_succ, ih (k + 1) (by omega) fun a ha hn => hall a (by omega) (by omega)]
      congr 1
      omega

end Sys2Proof.Machine

namespace Sys2Proof.Proofs

open Sys2Proof Sys2Proof.Machine

/-- Settles O22: the answers consumed are the 260 bytes, of which the last 256 are BUF. -/
theorem readPageCompletes : Obligations.ReadPageCompletes := by
  intro ign addr r0 r1 r2 r3 data rest s hb hts hdata ha
  obtain ⟨t, h, heq⟩ := exec_pageOp (.readPage ign addr) (rs := r0 :: r1 :: r2 :: r3 :: data)
    (by simp [Instr.sel]) hb hts (by simp [hdata, exchanges]) ha
  have hans : t.answers = rest := by rw [heq]; rfl
  have hread := exec_readPage_read hb h (hans ▸ ha)
  have hdraws := exec_draws_eq _ (by simp [Instr.sel]) hb h
  rw [hdraws] at heq
  refine ⟨t, h, fun k hk => ?_, fun k hk => ?_, heq⟩
  · rw [hread, receivedByte_okAnswers (by simp [hdata]; omega)]
    rfl
  · rw [hread, receivedByte_of_length_le (by simp [okAnswers, hdata, hk])]

/-- Settles O31: the answers consumed are the bytes received and the fault. -/
theorem faultedReadKeepsTail : Obligations.FaultedReadKeepsTail := by
  intro ign addr s rs rest hb hts hcan hlt ha
  obtain ⟨v, tx, h, hans, -⟩ := exec_of_fault (.readPage ign addr) hb hts hcan hlt ha
  have hread := exec_readPage_read (used := okAnswers rs ++ [.fault]) hb h (by simp [ha, faultExit, hans])
  refine ⟨_, h, rfl, rfl, fun k hk => ?_, fun k hk => ?_⟩
  · rw [hread, receivedByte_concat_fault, receivedByte_okAnswers hk]
  · rw [hread, receivedByte_concat_fault, receivedByte_of_length_le (by simpa [okAnswers] using hk)]

/-- Settles O52: the READ_PAGE writes over each byte of BUF what it held. -/
theorem pageRoundTrip : Obligations.PageRoundTrip := by
  intro g g' addr rs head rest s hb hts hwf hall hrs hhead ha
  obtain ⟨r0, r1, r2, r3, rfl⟩ := List.length_eq_four.mp hhead
  obtain ⟨t, hwrite, ht⟩ : ∃ t, exec (.writePage g addr) s = .next t ∧ t = _ :=
    ⟨_, writePageCompletes g addr rs (okAnswers ([r0, r1, r2, r3] ++ payload s) ++ rest) s hb hts hrs
      (by rw [ha, List.append_assoc]), rfl⟩
  have hidle : t.busy = false := by rw [ht]; rfl
  have hbuf : t.buf = s.buf := by rw [ht]; rfl
  obtain ⟨u, hexec, hin, hout, hu⟩ := readPageCompletes g' addr r0 r1 r2 r3 (payload s) rest t hidle
    (by rw [ht]; exact hts) (length_payloadFrom ..) (by rw [ht]; rfl)
  have hread (k : Nat) : Memory.read u.buf k = Memory.read s.buf k := by
    obtain hk | hk := Nat.lt_or_ge k 256
    · rw [hin k hk, payload, getElem?_payloadFrom 0 _ hk fun a _ hn => hall a (by omega), Nat.zero_add]
    · rw [hout k hk, hbuf]
  refine ⟨t, u, hwrite, hexec, by rw [ht]; rfl, by rw [hu]; rfl, by rw [hu]; rfl, ?_, ?_, ?_⟩
  · exact Memory.ext_of_wfFrom _ _ (exec_buf_wf _ hidle (hbuf ▸ hwf) hexec) hwf hread
  · simp [ht, finished]
  · have hcfg : t.cfg = s.cfg := by rw [ht]; rfl
    rw [hu, hcfg]
    simp [finished, -List.reduceReplicate]

end Sys2Proof.Proofs

/-!
PROOF. The arithmetic of DISCOVER_SIZE (spec/43_size_discovery.md R120 to R122): the accumulator is a shift
register of four bytes.
-/

namespace Sys2Proof.Machine

/-! ### The accumulator -/

/-- The received byte comes in above, and the lowest byte falls out (R120). -/
theorem accStep_eq_append (acc : Word) (rx : Byte) : accStep acc rx = rx ++ acc.extractLsb' 8 24 := by
  ext i hi
  simp [accStep]
  grind

/-- The four bytes stand in ACC last byte uppermost, and nothing else (R120). -/
theorem accStep_four_eq_append (acc : Word) (b0 b1 b2 b3 : Byte) :
    accStep (accStep (accStep (accStep acc b0) b1) b2) b3 = (b3 ++ b2 ++ b1 ++ b0 : Word) := by
  simp only [accStep_eq_append]
  ext i hi
  simp only [BitVec.getElem_append, BitVec.getElem_extractLsb', BitVec.getLsbD_append,
    BitVec.getLsbD_extractLsb']
  grind

/-- Four bytes side by side, as shifts: each bit comes from one of them. -/
theorem append_bytes_eq_or (b0 b1 b2 b3 : Byte) :
    (b3 ++ b2 ++ b1 ++ b0 : Word) =
      (b3.zeroExtend 32 <<< 24) ||| (b2.zeroExtend 32 <<< 16) ||| (b1.zeroExtend 32 <<< 8) |||
        b0.zeroExtend 32 := by
  ext i hi
  simp
  grind

end Sys2Proof.Machine

namespace Sys2Proof.Proofs

open Sys2Proof Sys2Proof.Machine

/-- Settles O7: what ACC held has been shifted out. -/
theorem sizeFieldLittleEndian : Obligations.SizeFieldLittleEndian := by
  intro acc b0 b1 b2 b3
  rw [accStep_four_eq_append, append_bytes_eq_or]

/-- Settles O8: the row SIZE 3 of the table. -/
theorem sizeIncrementWraps : Obligations.SizeIncrementWraps := by
  refine ⟨fun s rx rest ho hp hi hc ha => ?_, rfl⟩
  exact ⟨_, framerStep_of_tableRow (.ok hc (.sizeLast hp hi ho) ha), rfl, rfl, BitVec.toNat_add ..⟩

/-- Settles O9: the row DESELECT of OPR 7; a shift right is a division. -/
theorem sizeResultIsFloor : Obligations.SizeResultIsFloor := by
  refine ⟨fun s ho hp hi hf => ?_, rfl⟩
  have hfloor : (s.acc >>> 13).toNat = s.acc.toNat / 8192 := by
    rw [BitVec.toNat_ushiftRight, Nat.shiftRight_eq_div_pow]
  have hbound := toNat_shiftRight_13_lt s.acc
  exact ⟨_, framerStep_of_tableRow (.deselectSize hp hi hf ho), rfl, rfl, rfl, rfl, rfl, hfloor,
    Nat.le_of_lt_succ hbound⟩

end Sys2Proof.Proofs

/-!
PROOF. The walk of DISCOVER_SIZE (spec/43_size_discovery.md R115 to R119), phase by phase.
-/

namespace Sys2Proof.Machine

/-! ### The phases of the walk -/

/-- A DISCOVER_SIZE in progress inside its select window. -/
structure InWalk (u : State) : Prop where
  busy : u.busy = true
  cs : u.cs = true
  opr_eq : u.opr = 7#3

/-- A walk has come from `u` to the position (PH, IX) = `(p, k)`: its exchanges of DUMMY_BYTE have been
answered `rs`, H and ACC hold `h` and `acc`, and `rest` of the answers is left. -/
def State.walked (p : Phase) (k : Index) (h : Byte) (acc : Word) (rs : List Byte) (rest : List Answer)
    (u : State) : State :=
  { u with ph := p, ix := k, h := h, acc := acc, wire := u.wire ++ rs.map (.x u.cfg.dummyByte),
           answers := rest }

/-- A walk and then its continuation are one walk. -/
theorem State.walked_walked (p p' : Phase) (k k' : Index) (h h' : Byte) (acc acc' : Word)
    (rs rs' : List Byte) (rest rest' : List Answer) (u : State) :
    (u.walked p k h acc rs rest).walked p' k' h' acc' rs' rest' =
      u.walked p' k' h' acc' (rs ++ rs') rest' := by simp [State.walked]

theorem InWalk.walked {u : State} (hu : InWalk u) (p : Phase) (k : Index) (h : Byte) (acc : Word)
    (rs : List Byte) (rest : List Answer) : InWalk (u.walked p k h acc rs rest) :=
  ⟨hu.busy, hu.cs, hu.opr_eq⟩

/-- A counted phase of the walk (R85): at phase `p` it makes `n H` exchanges, each of which updates H with
`putH` and ACC with `putAcc`; the last also does `fin` to ACC and goes on to the phase `next`. -/
structure CountedPhase (p next : Phase) (n : Byte → Nat) (putH : Byte → Byte → Byte)
    (putAcc : Word → Byte → Word) (fin : Word → Word) : Prop where
  count_le : ∀ h, n h ≤ 2048
  count_put : ∀ h r, n (putH h r) = n h
  more : ∀ {u r rest}, InWalk u → u.ph = p → u.ix.toNat + 1 < n u.h → u.answers = .ok r :: rest →
    TableRow u (u.walked p (u.ix + 1) (putH u.h r) (putAcc u.acc r) [r] rest)
  last : ∀ {u r rest}, InWalk u → u.ph = p → u.ix.toNat + 1 = n u.h → u.answers = .ok r :: rest →
    TableRow u (u.walked next 0 (putH u.h r) (fin (putAcc u.acc r)) [r] rest)

/-- A counted phase from the position of `u` to its end, one step for each byte received. -/
theorem CountedPhase.framerSteps {p next : Phase} {n : Byte → Nat} {putH : Byte → Byte → Byte}
    {putAcc : Word → Byte → Word} {fin : Word → Word} (hc : CountedPhase p next n putH putAcc fin)
    {u : State} (hu : InWalk u) (hp : u.ph = p) (rs : List Byte) (rest : List Answer) (hne : rs ≠ [])
    (hlen : u.ix.toNat + rs.length = n u.h) (ha : u.answers = okAnswers rs ++ rest) :
    FramerSteps rs.length u
      (u.walked next 0 (rs.foldl putH u.h) (fin (rs.foldl putAcc u.acc)) rs rest) := by
  induction rs generalizing u with
  | nil => exact absurd rfl hne
  | cons r rs ih =>
    rw [List.length_cons] at hlen
    obtain rfl | hmore := eq_or_ne rs []
    · exact .one (hc.last hu hp hlen ha) hu.busy
    · have hpos := List.length_pos_of_ne_nil hmore
      have hrow := hc.more (rest := okAnswers rs ++ rest) hu hp (by omega) ha
      have hix : (u.ix + 1).toNat = u.ix.toNat + 1 := by
        have := hc.count_le u.h
        bv_omega
      have hrest := ih (hu.walked p (u.ix + 1) (putH u.h r) (putAcc u.acc r) [r] _) rfl hmore
        (by rw [State.walked, hix, hc.count_put]; omega) rfl
      rw [State.walked_walked] at hrest
      exact .cons hu.busy hrow hrest

/-- HDR: each of the eleven bytes overwrites H (R116). -/
theorem countedPhase_hdr :
    CountedPhase .hdr .align (fun _ => 11) (fun _ r => r) (fun acc _ => acc) id where
  count_le _ := by decide
  count_put _ _ := rfl
  more hu hp hi ha := .ok hu.cs (.hdr hp (by bv_omega) hu.opr_eq) ha
  last hu hp hi ha := .ok hu.cs (.hdrLast hp (by bv_omega) hu.opr_eq) ha

/-- ALIGN: one byte, discarded (R117). -/
theorem countedPhase_align :
    CountedPhase .align .skip (fun _ => 1) (fun h _ => h) (fun acc _ => acc) id where
  count_le _ := by decide
  count_put _ _ := rfl
  more _ _ hi _ := absurd hi (by omega)
  last hu hp hi ha := .ok hu.cs (.align hp (by bv_omega) hu.opr_eq) ha

/-- SKIP: 8H + 4 bytes, discarded (R118). -/
theorem countedPhase_skip :
    CountedPhase .skip .size (fun h => 8 * h.toNat + 4) (fun h _ => h) (fun acc _ => acc) id where
  count_le h := by have := h.isLt; omega
  count_put _ _ := rfl
  more {u _ _} hu hp hi ha := by
    have := toNat_skipCount u.h
    exact .ok hu.cs (.skip hp (by bv_omega) hu.opr_eq) ha
  last {u _ _} hu hp hi ha := by
    have := toNat_skipCount u.h
    exact .ok hu.cs (.skipLast hp (by bv_omega) hu.opr_eq) ha

/-- SIZE: four bytes accumulated, and 1 added after the last (R120, R121). -/
theorem countedPhase_size :
    CountedPhase .size .deselect (fun _ => 4) (fun h _ => h) accStep (· + 1) where
  count_le _ := by decide
  count_put _ _ := rfl
  more hu hp hi ha := .ok hu.cs (.size hp (by bv_omega) hu.opr_eq) ha
  last hu hp hi ha := .ok hu.cs (.sizeLast hp (by bv_omega) hu.opr_eq) ha

/-- The walk from its first header exchange to its DESELECT (R115), phase by phase. -/
theorem framerSteps_walk {u : State} (hu : InWalk u) (hp : u.ph = .hdr) (hi : u.ix = 0)
    (hdr skip : List Byte) (h al b0 b1 b2 b3 : Byte) (rest : List Answer) (hhdr : hdr.length = 10)
    (hskip : skip.length = 8 * h.toNat + 4)
    (ha : u.answers = okAnswers (hdr ++ h :: al :: skip ++ [b0, b1, b2, b3]) ++ rest) :
    FramerSteps (20 + 8 * h.toNat) u
      (u.walked .deselect 0 h ((b3 ++ b2 ++ b1 ++ b0 : Word) + 1)
        (hdr ++ h :: al :: skip ++ [b0, b1, b2, b3]) rest) := by
  have hheader := countedPhase_hdr.framerSteps hu hp (hdr ++ [h])
    (okAnswers [al] ++ (okAnswers skip ++ (okAnswers [b0, b1, b2, b3] ++ rest))) (by simp)
    (by simp [hi, hhdr]) (by simpa [okAnswers] using ha)
  have halign := countedPhase_align.framerSteps (hu.walked .align 0 h u.acc (hdr ++ [h]) _) rfl [al]
    (okAnswers skip ++ (okAnswers [b0, b1, b2, b3] ++ rest)) (by simp) rfl rfl
  have hskipped := countedPhase_skip.framerSteps (hu.walked .skip 0 h u.acc (hdr ++ [h] ++ [al]) _) rfl
    skip (okAnswers [b0, b1, b2, b3] ++ rest) (by rintro rfl; simp at hskip)
    (by simpa [State.walked] using hskip) rfl
  have hsize := countedPhase_size.framerSteps
    (hu.walked .size 0 h u.acc (hdr ++ [h] ++ [al] ++ skip) _) rfl [b0, b1, b2, b3] rest (by simp) rfl rfl
  have hcount : (hdr ++ [h]).length + ([al].length + (skip.length + 4)) = 20 + 8 * h.toNat := by
    simp +arith [hhdr, hskip]
  simp only [State.walked_walked, List.foldl_append, List.foldl_fixed] at hheader halign hskipped hsize
  have hbytes : hdr ++ h :: al :: skip = hdr ++ [h] ++ [al] ++ skip := by simp
  rw [← hcount, ← accStep_four_eq_append u.acc, hbytes]
  exact hheader.trans (halign.trans (hskipped.trans hsize))

/-! ### The frame of the walk -/

theorem exchangeEvents_replicate {n : Nat} {rs : List Byte} (b : Byte) (h : rs.length = n) :
    exchangeEvents (List.replicate n b) rs = rs.map (.x b) := by
  subst h
  induction rs with
  | nil => rfl
  | cons r rs ih => exact congrArg (.x b r :: ·) ih

/-- The frame W-SFDP: one byte of its own, then DUMMY_BYTE (R63). -/
theorem exchangeEvents_cons_replicate {n : Nat} {rs : List Byte} (tx r b : Byte) (h : rs.length = n) :
    exchangeEvents (tx :: List.replicate n b) (r :: rs) = .x tx r :: rs.map (.x b) := by
  rw [← exchangeEvents_replicate b h]
  rfl

end Sys2Proof.Machine

namespace Sys2Proof.Proofs

open Sys2Proof Sys2Proof.Machine

/-- Settles O25: the opcode, the walk and the deselect, at most 2063 steps with the select. -/
theorem discoverSizeCompletes : Obligations.DiscoverSizeCompletes := by
  intro ign r0 h al b0 b1 b2 b3 hdr skip rest s hb hts hhdr hskip ha
  have hlen : (hdr ++ h :: al :: skip ++ [b0, b1, b2, b3]).length = 20 + 8 * h.toNat := by
    simp +arith [hhdr, hskip]
  have hmax := h.isLt
  have hwalk := framerSteps_walk (u := { exchanged 0 s.cfg.opSfdp r0
      (okAnswers (hdr ++ h :: al :: skip ++ [b0, b1, b2, b3]) ++ rest)
      (opened (.discoverSize ign) s) with ph := .hdr, ix := 0 })
    ⟨rfl, rfl, rfl⟩ rfl rfl hdr skip h al b0 b1 b2 b3 rest hhdr hskip rfl
  rw [exec_of_rows_after_opc _ hb hts ha (.opcToHdr rfl rfl rfl)
    (hwalk.trans (.one (.deselectSize rfl rfl rfl rfl) rfl)) (by rw [maxFramerSteps]; omega) rfl]
  simp only [List.cons_append, exchangeEvents_cons_replicate _ _ _ hlen]
  simp [finished, State.walked, exchanged, opened, goto, csAssert, logEvent, accept]

end Sys2Proof.Proofs

/-!
PROOF. An operation whose transport cannot fault (spec/60_exceptions.md R130): no row of the table raises
the exception.
-/

namespace Sys2Proof.Machine

/-! ### Without T_CAN_FAULT -/

/-- With T_CAN_FAULT false a row of the table leaves FLT as it is, and its event is no faulted exchange. -/
theorem TableRow.unfaulted {s t : State} (h : TableRow s t) (hcan : s.cfg.tCanFault = false) :
    t.flt = s.flt ∧ ∃ e, t.wire = s.wire ++ [e] ∧ ∀ tx, e ≠ .xf tx := by
  cases h with
  | @ok _ d tx rx put rest hr =>
    have hk := hr.put_kept rx (exchanged d tx rx rest s)
    exact ⟨hk.flt_eq, _, hk.wire_eq, by simp⟩
  | fault _ _ _ hf => simp [hcan] at hf
  | _ => exact ⟨rfl, _, rfl, by simp⟩

/-- No fault has occurred in an operation accepted in `s` that has come to `u`, and none can. -/
structure Unfaulted (s u : State) : Prop where
  cannot : u.cfg.tCanFault = false
  flt : u.flt = false
  wire : ∃ ev, u.wire = s.wire ++ ev ∧ ∀ tx, WireEvent.xf tx ∉ ev

theorem Unfaulted.step {s u v : State} (hu : Unfaulted s u) (h : TableRow u v) : Unfaulted s v := by
  obtain ⟨ev, hw, hno⟩ := hu.wire
  obtain ⟨hf, e, he, hne⟩ := h.unfaulted hu.cannot
  exact ⟨by rw [h.sameOutside.cfg_eq, hu.cannot], hf.trans hu.flt, ev ++ [e],
    by rw [he, hw, List.append_assoc], xf_notMem_concat hno hne⟩

theorem exec_unfaulted (i : Instr) {s t : State} (hb : s.busy = false) (hcan : s.cfg.tCanFault = false)
    (h : exec i s = .next t) : Unfaulted s t :=
  exec_keeps_opr i hb ⟨hcan, rfl, [], by simp [accepted], by simp⟩ (fun _ _ _ _ hu huv => hu.step huv) h

end Sys2Proof.Machine

namespace Sys2Proof.Proofs

open Sys2Proof Sys2Proof.Machine

/-- Settles O29: the fault exit and the faulted DESELECT are two rows of the table. -/
theorem transportFaultEntry : Obligations.TransportFaultEntry := by
  intro s d tx put rest hr hc hcan ha
  refine ⟨framerStep_of_tableRow (.fault hc hr ha hcan), ?_⟩
  rw [framerStep_of_tableRow (.deselectFault rfl rfl rfl)]
  simp

/-- Settles O30. -/
theorem faultEndsOperation : Obligations.FaultEndsOperation := by
  intro i s rs rest hb hts hcan hlt ha
  obtain ⟨v, tx, h, hans, htx, hwire⟩ := exec_of_fault i hb hts hcan hlt ha
  refine ⟨_, tx, h, htx, ?_, hans, rfl, rfl, rfl, rfl, rfl, rfl, rfl⟩
  simp [faultExit, hwire]

/-- Settles O32: a code other than 0 would come with a faulted exchange on the wire (R21). -/
theorem noFaultWithoutTCanFault : Obligations.NoFaultWithoutTCanFault := by
  intro i s t hb hcan h
  obtain ⟨-, hf, ev, hw, hno⟩ := exec_unfaulted i hb hcan h
  refine ⟨hf, fun hd => ?_, ev, hw, hno⟩
  obtain ⟨ev', hw', ⟨hcode, -⟩ | ⟨-, pre, tx, hev, -⟩⟩ := (completionCode i s t hb h).2 hd
  · exact hcode
  · have hsame : ev = ev' := List.append_cancel_left (hw.symm.trans hw')
    exact absurd (by simp [hsame, hev]) (hno tx)

end Sys2Proof.Proofs

/-!
PROOF. Where the framer waits (spec/40_framing.md R83, spec/60_exceptions.md R139): exactly at an exchange
position of the table, with CS = 1, that the transport does not answer; the host cannot end the wait but by
a reset.
-/

namespace Sys2Proof.Machine

/-! ### The rows that wait -/

/-- An exchange from `s` is enabled, and the transport has no answer to it: it is silent, or its list goes
on with a Fault that it cannot give (R6). -/
def State.Unanswered (s : State) : Prop :=
  s.cs = true ∧ (s.answers = [] ∨ (s.answers.head? = some .fault ∧ s.cfg.tCanFault = false))

theorem takeAnswer_eq_none {s : State} :
    takeAnswer s = none ↔
      s.answers = [] ∨ (s.answers.head? = some .fault ∧ s.cfg.tCanFault = false) := by
  unfold takeAnswer
  split <;> simp_all

theorem xfer_waiting_iff {tx : Byte} {f : Byte → State → State} {s : State} :
    xfer tx f s = .waiting ↔ s.Unanswered := by
  rw [State.Unanswered, ← takeAnswer_eq_none]
  exact ⟨xfer_eq_waiting, fun ⟨hc, hn⟩ => xfer_silent hc hn⟩

/-- An exchange under a condition on the position, with `m` what happens elsewhere. -/
theorem guardedXfer_waiting_iff {c : Prop} [Decidable c] {tx : Byte} {f : Byte → State → State}
    {s : State} {m : FramerMove} :
    (if c then xfer tx f s else m) = .waiting ↔ (c ∧ s.Unanswered) ∨ (¬ c ∧ m = .waiting) := by
  split_ifs with hc <;> simp [hc, xfer_waiting_iff]

@[simp] theorem selectRow_ne_waiting (s : State) : selectRow s ≠ .waiting := by
  unfold selectRow
  split_ifs <;> simp

@[simp] theorem deselectRow_ne_waiting (done : State → State) (s : State) :
    deselectRow done s ≠ .waiting := by
  unfold deselectRow
  split_ifs <;> simp

@[simp] theorem wakeRow_ne_waiting (s : State) : wakeRow s ≠ .waiting := by
  unfold wakeRow
  split_ifs <;> simp

theorem opcRow_waiting_iff {next : Phase} {s : State} :
    opcRow next s = .waiting ↔ s.ix = 0 ∧ s.Unanswered := by simp [opcRow, guardedXfer_waiting_iff]

theorem addrRow_waiting_iff {next : Phase} {s : State} :
    addrRow next s = .waiting ↔ s.ix < 3#11 ∧ s.Unanswered := by
  have hlt : s.ix < 3#11 ↔ s.ix = 0 ∨ s.ix = 1 ∨ s.ix = 2 := by bv_omega
  simp only [addrRow, guardedXfer_waiting_iff, hlt, reduceCtorEq]
  tauto

theorem countedRow_waiting_iff {n : Nat} {p q : Phase} {tx : Byte} {put : Index → Byte → State → State}
    {fin : State → State} {s : State} :
    countedRow n p q tx put fin s = .waiting ↔ s.ix ≤ lastIx n ∧ s.Unanswered := by
  have hle : s.ix ≤ lastIx n ↔ s.ix < lastIx n ∨ s.ix = lastIx n := by bv_omega
  simp only [countedRow, guardedXfer_waiting_iff, hle, reduceCtorEq]
  tauto

/-- The indexes of a phase of `n` exchanges, `n` as an index. -/
theorem le_lastIx_iff {x n : Index} (hn : 0 < n) : x ≤ lastIx n.toNat ↔ x < n := by
  have := toNat_lastIx (n := n.toNat) hn (by omega)
  bv_omega

theorem payloadRow_waiting_iff {s : State} :
    payloadRow s = .waiting ↔ s.ix < 256#11 ∧ s.Unanswered := by
  rw [payloadRow, countedRow_waiting_iff, bufRead_snd]
  exact and_congr_left' (le_lastIx_iff (n := 256#11) (by decide))

/-! ### Where the framer waits -/

/-- The position is that of an exchange which the transition table lists for OPR. -/
def State.AtExchange (s : State) : Prop :=
  s.listed = true ∧ s.ph.selected = true ∧ s.ph ≠ .deselect

/-- By column and phase: each entry of the table is one of the rows above. -/
theorem framerStep_waiting_iff {s : State} :
    framerStep s = .waiting ↔ s.AtExchange ∧ s.Unanswered := by
  have hpage : s.ix ≤ lastIx pageBytes ↔ s.ix < 256#11 := le_lastIx_iff (n := 256#11) (by decide)
  have hhdr : s.ix ≤ lastIx sfdpHdrReads ↔ s.ix < 11#11 := le_lastIx_iff (n := 11#11) (by decide)
  have halign : s.ix ≤ lastIx sfdpAlignReads ↔ s.ix = 0 := by rw [lastIx_align]; bv_omega
  have hskip : s.ix ≤ lastIx (skipCount s.h).toNat ↔ s.ix < skipCount s.h :=
    le_lastIx_iff (by have := toNat_skipCount s.h; bv_omega)
  have hsize : s.ix ≤ lastIx sfdpSizeBytes ↔ s.ix < 4#11 := le_lastIx_iff (n := 4#11) (by decide)
  rcases selector_cases s.opr with ho | ho | ho | ho | ho | ho | ho | ho <;>
    rw [framerStep_eq ho, State.AtExchange, State.listed, ho]
  · rw [rowsOf_0, issueCmdRow, oneByteRow]
    cases s.ph <;> simp [Phase.selected, opcRow_waiting_iff]
  · rw [rowsOf_1, readStatusRow]
    cases s.ph <;> simp [Phase.selected, opcRow_waiting_iff, guardedXfer_waiting_iff]
  · rw [rowsOf_2, enterUdpdRow, oneByteRow]
    cases s.ph <;> simp [Phase.selected, opcRow_waiting_iff]
  · rw [rowsOf_3, exitSleepRow]
    cases s.ph <;> simp [Phase.selected, opcRow_waiting_iff]
  · rw [rowsOf_4, readPageRow]
    cases s.ph <;>
      simp [Phase.selected, opcRow_waiting_iff, addrRow_waiting_iff, countedRow_waiting_iff, hpage]
  · rw [rowsOf_5, writePageRow]
    cases s.ph <;> simp [Phase.selected, opcRow_waiting_iff, addrRow_waiting_iff, payloadRow_waiting_iff]
  · rw [rowsOf_6, erasePageRow]
    cases s.ph <;> simp [Phase.selected, opcRow_waiting_iff, addrRow_waiting_iff]
  · rw [rowsOf_7, discoverSizeRow]
    cases s.ph <;>
      simp [Phase.selected, opcRow_waiting_iff, countedRow_waiting_iff, hhdr, halign, hskip, hsize]

/-! ### The host at a wait -/

/-- The host has taken steps that only read: what is left of its list, what it has read more, and the count
of draws. -/
def State.afterReads (host : List HostStep) (seen : List HostValue) (draws : Nat) (s : State) : State :=
  { s with host := host, seen := s.seen ++ seen, draws := draws }

/-- The host's reads do not end a wait. -/
theorem waiting_afterReads {s : State} (host : List HostStep) (seen : List HostValue) (draws : Nat)
    (hw : framerStep s = .waiting) : framerStep (s.afterReads host seen draws) = .waiting := by
  have hat := framerStep_waiting_iff.mp hw
  exact framerStep_waiting_iff.mpr hat

/-- A step at a wait is no more than a read of the host, unless the host resets. -/
theorem step_of_waiting {s : State} (hb : s.busy = true) (hw : framerStep s = .waiting)
    (hr : HostStep.reset ∉ s.host) :
    ∃ host seen draws, step s = .next (s.afterReads host seen draws) ∧ HostStep.reset ∉ host := by
  rw [step_of_busy hb, busyTurn_of_waiting hw]
  obtain he | ⟨rest, hh, he⟩ | ⟨rest, hh, -⟩ := hostTurnBusy_cases s
  · exact ⟨s.host, [], s.draws, by simp [he, State.afterReads], hr⟩
  · obtain ⟨v, d, hread⟩ := hostReadResult_eq { s with host := rest }
    exact ⟨rest, [v], d, by rw [he, hread]; rfl, fun hm => hr (by simp [hh, hm])⟩
  · exact absurd (by simp [hh]) hr

theorem core_run_succ (n : Nat) {s t : State} (h : step s = .next t) :
    Host.Core.run core (n + 1) s = Host.Core.run core n t := by
  have hcore : core.step s = .next t := h
  simp only [Host.Core.run, hcore]

/-- Any number of steps at a wait are no more than reads of the host, unless it resets. -/
theorem run_of_waiting (n : Nat) {s : State} (hb : s.busy = true) (hw : framerStep s = .waiting)
    (hr : HostStep.reset ∉ s.host) :
    ∃ host seen draws, Host.Core.run core n s = .next (s.afterReads host seen draws) := by
  induction n generalizing s with
  | zero => exact ⟨s.host, [], s.draws, by simp [Host.Core.run, State.afterReads]⟩
  | succ n ih =>
    obtain ⟨host, seen, draws, hstep, hr'⟩ := step_of_waiting hb hw hr
    obtain ⟨host', seen', draws', hrun⟩ :=
      ih (s := s.afterReads host seen draws) hb (waiting_afterReads host seen draws hw) hr'
    refine ⟨host', seen ++ seen', draws', ?_⟩
    rw [core_run_succ n hstep, hrun]
    simp [State.afterReads]

end Sys2Proof.Machine

namespace Sys2Proof.Proofs

open Sys2Proof Sys2Proof.Machine

/-- Settles O35. -/
theorem unansweredExchangeHangs : Obligations.UnansweredExchangeHangs := by
  intro s hb hw hr
  obtain ⟨-, hcs, -⟩ := framerStep_waiting_iff.mp hw
  exact ⟨hcs, fun n => run_of_waiting n hb hw hr⟩

end Sys2Proof.Proofs

/-!
PROOF. A reset (spec/70_reset_and_hazards.md R150, R151): wherever the host acts, its step is the reset of
the framer in the state with the turn taken.
-/

namespace Sys2Proof.Machine

/-- An idle framer takes no turn from its list when the host acts. -/
theorem State.hostActsIn.eq_of_idle {s u : State} (ha : s.hostActsIn u) (hb : s.busy = false) : u = s := by
  obtain ⟨rfl, -⟩ | ⟨hbusy, -⟩ := ha
  · rfl
  · simp [hb] at hbusy

/-- While BUSY = 1, where the host acts, the step is the host's turn in the state with the turn taken. -/
theorem step_of_hostActsIn_busy {s u : State} (ha : s.hostActsIn u) (hb : s.busy = true) :
    step s = hostTurnBusy u := by
  rw [step_of_busy hb]
  obtain ⟨rfl, hidle | hw⟩ | ⟨-, ⟨t, hm⟩, ts, hts, rfl⟩ := ha
  · simp [hb] at hidle
  · exact busyTurn_of_waiting hw
  · exact busyTurn_of_zero hm hts

/-- The host of an idle framer resets it (R150). -/
theorem step_of_reset {s : State} {rest : List HostStep} (hb : s.busy = false)
    (hh : s.host = .reset :: rest) : step s = .next (resetFramer { s with host := rest }) := by
  simp [step_of_idle hb, hostTurn, hh, popHost]

/-- Where the host acts, its reset is taken in the state with the turn taken (R151). -/
theorem step_of_hostActsIn_reset {s u : State} {rest : List HostStep} (ha : s.hostActsIn u)
    (hh : s.host = .reset :: rest) : step s = .next (resetFramer { u with host := rest }) := by
  cases hb : s.busy with
  | false =>
    obtain rfl := ha.eq_of_idle hb
    exact step_of_reset hb hh
  | true =>
    have hhu : u.host = .reset :: rest := by
      obtain ⟨ts, rfl⟩ := ha.eq
      exact hh
    rw [step_of_hostActsIn_busy ha hb, hostTurnBusy_of_reset hhu]

end Sys2Proof.Machine

namespace Sys2Proof.Proofs

open Sys2Proof Sys2Proof.Machine

/-- Settles O50: the state left is `resetFramer` of `s` with the turn taken, so it keeps of `s` the
environment but for the host's step and the turn. -/
theorem resetStep : Obligations.ResetStep := by
  intro s u rest ha hh
  have hstep := step_of_hostActsIn_reset ha hh
  obtain ⟨ts, rfl⟩ := ha.eq
  rw [resetFramer_eq] at hstep
  exact ⟨_, hstep, rfl, rfl, rfl, rfl, rfl, rfl, Memory.read_nil, rfl, rfl, rfl, rfl, rfl, rfl⟩

end Sys2Proof.Proofs

/-!
PROOF. The state after reset (spec/10_state.md R34).
-/

namespace Sys2Proof.Proofs

open Sys2Proof Sys2Proof.Machine

/-- Settles O37: the registers are read off `State.reset`, BUF is the empty memory, and the framer waits
because reset leaves it idle with no step of the host (`idleFramerWaits`). -/
theorem resetState : Obligations.ResetState := by
  have hidle : State.reset.busy = false := rfl
  have hhost : State.reset.host = [] := rfl
  have hwaits : step State.reset = .next State.reset := idleFramerWaits State.reset hidle hhost
  exact ⟨hidle, rfl, rfl, rfl, rfl, rfl, Memory.read_nil, hwaits⟩

end Sys2Proof.Proofs
